-- ==== Sys2Proof/Word.lean ====
section
/-! DEFINITION. The word types of the machine: the widths of `00_scope.md` rule R6. -/

namespace Sys2Proof

/-- `DATA_BITS`: W, a file register, an 8-bit literal (R6). -/
abbrev Byte := BitVec 8

/-- `WORD_BITS`: one instruction, one word of program memory (R6, R110). -/
abbrev ProgWord := BitVec 14

/-- `PC_BITS`: the program counter and a return-stack entry (R6, R27, R31). -/
abbrev PC := BitVec 15

/-- `F_BITS`: the file address field of an instruction (R6, R10). -/
abbrev FileAddr := BitVec 7

/-- A 12-bit data address, bank : offset (R72). -/
abbrev DataAddr := BitVec 12

/-- `FSR_BITS`: a pointer register, an address of the FSR space (R6, R29, R75). -/
abbrev FsrAddr := BitVec 16

end Sys2Proof
end

