-- ==== Sys2Proof/Syntax.lean ====
section
/-! DEFINITION. The instructions: one constructor for each of the 53 rows of `30_encoding.md` rule R113
(`opcode_table.json`), in the table's order, with the operands of R112. -/

namespace Sys2Proof

/-- The destination select `d` (R10): 0 is W, 1 is register f. -/
inductive Dest where
  | w
  | f
deriving DecidableEq, Repr

/-- The pointer select `n` (R10): FSR0/INDF0 or FSR1/INDF1. -/
inductive FsrSel where
  | fsr0
  | fsr1
deriving DecidableEq, Repr

/-- The mode `mm` of MOVIW and MOVWI (R112, R260 e). -/
inductive PtrMode where
  /-- 00, `++FSRn` -/
  | preInc
  /-- 01, `--FSRn` -/
  | preDec
  /-- 10, `FSRn++` -/
  | postInc
  /-- 11, `FSRn--` -/
  | postDec
deriving DecidableEq, Repr

/-- One constructor per row of R113. Signed literals (BRA, ADDFSR, `k[FSRn]`) are held as their two's complement fields. -/
inductive Instr where
  | addwf (f : FileAddr) (d : Dest)
  | addwfc (f : FileAddr) (d : Dest)
  | andwf (f : FileAddr) (d : Dest)
  | asrf (f : FileAddr) (d : Dest)
  | lslf (f : FileAddr) (d : Dest)
  | lsrf (f : FileAddr) (d : Dest)
  | clrf (f : FileAddr)
  | clrw
  | comf (f : FileAddr) (d : Dest)
  | decf (f : FileAddr) (d : Dest)
  | incf (f : FileAddr) (d : Dest)
  | iorwf (f : FileAddr) (d : Dest)
  | movf (f : FileAddr) (d : Dest)
  | movwf (f : FileAddr)
  | rlf (f : FileAddr) (d : Dest)
  | rrf (f : FileAddr) (d : Dest)
  | subwf (f : FileAddr) (d : Dest)
  | subwfb (f : FileAddr) (d : Dest)
  | swapf (f : FileAddr) (d : Dest)
  | xorwf (f : FileAddr) (d : Dest)
  | decfsz (f : FileAddr) (d : Dest)
  | incfsz (f : FileAddr) (d : Dest)
  | bcf (f : FileAddr) (b : BitVec 3)
  | bsf (f : FileAddr) (b : BitVec 3)
  | btfsc (f : FileAddr) (b : BitVec 3)
  | btfss (f : FileAddr) (b : BitVec 3)
  | addlw (k : Byte)
  | andlw (k : Byte)
  | iorlw (k : Byte)
  | movlb (k : BitVec 5)
  | movlp (k : BitVec 7)
  | movlw (k : Byte)
  | sublw (k : Byte)
  | xorlw (k : Byte)
  /-- `k`: a signed 9-bit literal. -/
  | bra (k : BitVec 9)
  | brw
  | call (k : BitVec 11)
  | callw
  | goto (k : BitVec 11)
  | retfie
  | retlw (k : Byte)
  /-- RETURN -/
  | ret
  | clrwdt
  | nop
  /-- OPTION -/
  | optionW
  | reset
  | sleep
  /-- `f`: 5, 6 or 7 (WellFormed checks it). -/
  | tris (f : BitVec 3)
  /-- `k`: a signed 6-bit literal. -/
  | addfsr (n : FsrSel) (k : BitVec 6)
  /-- MOVIW with pre/post increment/decrement -/
  | moviwMod (n : FsrSel) (mm : PtrMode)
  /-- MOVIW k[FSRn], `k` a signed 6-bit literal -/
  | moviwIdx (n : FsrSel) (k : BitVec 6)
  /-- MOVWI with pre/post increment/decrement -/
  | movwiMod (n : FsrSel) (mm : PtrMode)
  /-- MOVWI k[FSRn], `k` a signed 6-bit literal -/
  | movwiIdx (n : FsrSel) (k : BitVec 6)
deriving DecidableEq, Repr

end Sys2Proof
end

