-- ==== Sys2Proof/WellFormed.lean ====
section
/-! DEFINITION. Which instruction terms the encoding admits. Every operand but one has exactly the width of its field
(R111, R112), so its type is the whole check; TRIS takes only f = 5, 6, 7 (R116, R245). -/

namespace Sys2Proof

/-- The term stands for a word of R113: for TRIS, `5 ≤ f ≤ 7` (R245); every other term does. -/
def Instr.wellFormed : Instr → Bool
  | .tris f => decide (5 ≤ f.toNat)
  | .addwf _ _ | .addwfc _ _ | .andwf _ _ | .asrf _ _ | .lslf _ _ | .lsrf _ _ | .clrf _ | .clrw | .comf _ _
  | .decf _ _ | .incf _ _ | .iorwf _ _ | .movf _ _ | .movwf _ | .rlf _ _ | .rrf _ _ | .subwf _ _
  | .subwfb _ _ | .swapf _ _ | .xorwf _ _ | .decfsz _ _ | .incfsz _ _ | .bcf _ _ | .bsf _ _ | .btfsc _ _
  | .btfss _ _ | .addlw _ | .andlw _ | .iorlw _ | .movlb _ | .movlp _ | .movlw _ | .sublw _ | .xorlw _
  | .bra _ | .brw | .call _ | .callw | .goto _ | .retfie | .retlw _ | .ret | .clrwdt | .nop | .optionW
  | .reset | .sleep | .addfsr _ _ | .moviwMod _ _ | .moviwIdx _ _ | .movwiMod _ _ | .movwiIdx _ _ => true

end Sys2Proof
end

