-- ==== Sys2Proof/Decode.lean ====
section
/-! DEFINITION. The decoder (`30_encoding.md` R110 to R117), total on the 16384 words, and after it the encoder, both from
the table of R113. -/

namespace Sys2Proof

/-- Why a word is no instruction: it matches no row of R113 (R114). -/
inductive DecodeError where
  | unassignedOpcode (iw : ProgWord)
deriving DecidableEq, Repr

/-! ### Operand fields (R112) -/

/-- `f = iw[6:0]` of the formats BYTE, FILE and BIT. -/
def fieldF (w : ProgWord) : FileAddr := w.extractLsb' 0 7

/-- `d = iw[7]`: 0 is W, 1 is f. -/
def fieldD (w : ProgWord) : Dest := if w.getLsbD 7 then .f else .w

/-- `b = iw[9:7]`. -/
def fieldB (w : ProgWord) : BitVec 3 := w.extractLsb' 7 3

/-- `n`, one bit at position `i`: `iw[6]` in FSRK, `iw[2]` in FSRM. -/
def fieldN (w : ProgWord) (i : Nat) : FsrSel := if w.getLsbD i then .fsr1 else .fsr0

/-- `mm = iw[1:0]`. -/
def fieldMM (w : ProgWord) : PtrMode :=
  if w.getLsbD 1 then (if w.getLsbD 0 then .postDec else .postInc) else (if w.getLsbD 0 then .preDec else .preInc)

/-! ### The opcode table (R113) -/

/-- One row of R113: `iw` is the instruction iff `(iw & mask) = code`, and for TRIS also its side condition. -/
structure OpRow where
  code : ProgWord
  mask : ProgWord
  guard : ProgWord → Bool := fun _ => true
  build : ProgWord → Instr

/-- The word is the row's instruction. -/
def OpRow.accepts (r : OpRow) (w : ProgWord) : Bool := (w &&& r.mask == r.code) && r.guard w

/-- Byte-oriented and byte-oriented skip rows, 1 to 22 (R113). -/
def opRowsByte : List OpRow := [
  { code := 0x0700#14, mask := 0x3F00#14, build := fun w => .addwf (fieldF w) (fieldD w) },
  { code := 0x3D00#14, mask := 0x3F00#14, build := fun w => .addwfc (fieldF w) (fieldD w) },
  { code := 0x0500#14, mask := 0x3F00#14, build := fun w => .andwf (fieldF w) (fieldD w) },
  { code := 0x3700#14, mask := 0x3F00#14, build := fun w => .asrf (fieldF w) (fieldD w) },
  { code := 0x3500#14, mask := 0x3F00#14, build := fun w => .lslf (fieldF w) (fieldD w) },
  { code := 0x3600#14, mask := 0x3F00#14, build := fun w => .lsrf (fieldF w) (fieldD w) },
  { code := 0x0180#14, mask := 0x3F80#14, build := fun w => .clrf (fieldF w) },
  { code := 0x0100#14, mask := 0x3FFC#14, build := fun _ => .clrw },
  { code := 0x0900#14, mask := 0x3F00#14, build := fun w => .comf (fieldF w) (fieldD w) },
  { code := 0x0300#14, mask := 0x3F00#14, build := fun w => .decf (fieldF w) (fieldD w) },
  { code := 0x0A00#14, mask := 0x3F00#14, build := fun w => .incf (fieldF w) (fieldD w) },
  { code := 0x0400#14, mask := 0x3F00#14, build := fun w => .iorwf (fieldF w) (fieldD w) },
  { code := 0x0800#14, mask := 0x3F00#14, build := fun w => .movf (fieldF w) (fieldD w) },
  { code := 0x0080#14, mask := 0x3F80#14, build := fun w => .movwf (fieldF w) },
  { code := 0x0D00#14, mask := 0x3F00#14, build := fun w => .rlf (fieldF w) (fieldD w) },
  { code := 0x0C00#14, mask := 0x3F00#14, build := fun w => .rrf (fieldF w) (fieldD w) },
  { code := 0x0200#14, mask := 0x3F00#14, build := fun w => .subwf (fieldF w) (fieldD w) },
  { code := 0x3B00#14, mask := 0x3F00#14, build := fun w => .subwfb (fieldF w) (fieldD w) },
  { code := 0x0E00#14, mask := 0x3F00#14, build := fun w => .swapf (fieldF w) (fieldD w) },
  { code := 0x0600#14, mask := 0x3F00#14, build := fun w => .xorwf (fieldF w) (fieldD w) },
  { code := 0x0B00#14, mask := 0x3F00#14, build := fun w => .decfsz (fieldF w) (fieldD w) },
  { code := 0x0F00#14, mask := 0x3F00#14, build := fun w => .incfsz (fieldF w) (fieldD w) } ]

/-- Bit-oriented, bit-oriented skip and literal rows, 23 to 34 (R113). -/
def opRowsBitLiteral : List OpRow := [
  { code := 0x1000#14, mask := 0x3C00#14, build := fun w => .bcf (fieldF w) (fieldB w) },
  { code := 0x1400#14, mask := 0x3C00#14, build := fun w => .bsf (fieldF w) (fieldB w) },
  { code := 0x1800#14, mask := 0x3C00#14, build := fun w => .btfsc (fieldF w) (fieldB w) },
  { code := 0x1C00#14, mask := 0x3C00#14, build := fun w => .btfss (fieldF w) (fieldB w) },
  { code := 0x3E00#14, mask := 0x3F00#14, build := fun w => .addlw (w.extractLsb' 0 8) },
  { code := 0x3900#14, mask := 0x3F00#14, build := fun w => .andlw (w.extractLsb' 0 8) },
  { code := 0x3800#14, mask := 0x3F00#14, build := fun w => .iorlw (w.extractLsb' 0 8) },
  { code := 0x0020#14, mask := 0x3FE0#14, build := fun w => .movlb (w.extractLsb' 0 5) },
  { code := 0x3180#14, mask := 0x3F80#14, build := fun w => .movlp (w.extractLsb' 0 7) },
  { code := 0x3000#14, mask := 0x3F00#14, build := fun w => .movlw (w.extractLsb' 0 8) },
  { code := 0x3C00#14, mask := 0x3F00#14, build := fun w => .sublw (w.extractLsb' 0 8) },
  { code := 0x3A00#14, mask := 0x3F00#14, build := fun w => .xorlw (w.extractLsb' 0 8) } ]

/-- Control, inherent and C-compiler optimized rows, 35 to 53 (R113). -/
def opRowsRest : List OpRow := [
  { code := 0x3200#14, mask := 0x3E00#14, build := fun w => .bra (w.extractLsb' 0 9) },
  { code := 0x000B#14, mask := 0x3FFF#14, build := fun _ => .brw },
  { code := 0x2000#14, mask := 0x3800#14, build := fun w => .call (w.extractLsb' 0 11) },
  { code := 0x000A#14, mask := 0x3FFF#14, build := fun _ => .callw },
  { code := 0x2800#14, mask := 0x3800#14, build := fun w => .goto (w.extractLsb' 0 11) },
  { code := 0x0009#14, mask := 0x3FFF#14, build := fun _ => .retfie },
  { code := 0x3400#14, mask := 0x3F00#14, build := fun w => .retlw (w.extractLsb' 0 8) },
  { code := 0x0008#14, mask := 0x3FFF#14, build := fun _ => .ret },
  { code := 0x0064#14, mask := 0x3FFF#14, build := fun _ => .clrwdt },
  { code := 0x0000#14, mask := 0x3FFF#14, build := fun _ => .nop },
  { code := 0x0062#14, mask := 0x3FFF#14, build := fun _ => .optionW },
  { code := 0x0001#14, mask := 0x3FFF#14, build := fun _ => .reset },
  { code := 0x0063#14, mask := 0x3FFF#14, build := fun _ => .sleep },
  { code := 0x0060#14, mask := 0x3FF8#14, guard := fun w => decide (5 ≤ (w.extractLsb' 0 3).toNat), build := fun w => .tris (w.extractLsb' 0 3) },
  { code := 0x3100#14, mask := 0x3F80#14, build := fun w => .addfsr (fieldN w 6) (w.extractLsb' 0 6) },
  { code := 0x0010#14, mask := 0x3FF8#14, build := fun w => .moviwMod (fieldN w 2) (fieldMM w) },
  { code := 0x3F00#14, mask := 0x3F80#14, build := fun w => .moviwIdx (fieldN w 6) (w.extractLsb' 0 6) },
  { code := 0x0018#14, mask := 0x3FF8#14, build := fun w => .movwiMod (fieldN w 2) (fieldMM w) },
  { code := 0x3F80#14, mask := 0x3F80#14, build := fun w => .movwiIdx (fieldN w 6) (w.extractLsb' 0 6) } ]

/-- The 53 rows of R113, in its order. -/
def opTable : List OpRow := opRowsByte ++ opRowsBitLiteral ++ opRowsRest

/-- `Decode(iw)` (R117): the row that accepts the word, its operands extracted; no row: R114. -/
def decode (w : ProgWord) : Except DecodeError Instr :=
  match opTable.find? (fun r => r.accepts w) with
  | some r => .ok (r.build w)
  | none => .error (.unassignedOpcode w)

/-- The host's question: the instruction read from the bits `w` of one program word. A program word has 14 bits (R110),
so a number of 2^14 or more is no word, and `nbits` (whole bytes) only bounds it. -/
def decodeTableWord (nbits w : Nat) : Option Instr :=
  if w < 2 ^ nbits ∧ w < 2 ^ 14 then
    match decode (BitVec.ofNat 14 w) with
    | .ok i => some i
    | .error _ => none
  else none

/-! ### The encoder -/

def destBit : Dest → BitVec 1
  | .w => 0b0#1
  | .f => 0b1#1

def fsrBit : FsrSel → BitVec 1
  | .fsr0 => 0b0#1
  | .fsr1 => 0b1#1

def modeBits : PtrMode → BitVec 2
  | .preInc => 0b00#2
  | .preDec => 0b01#2
  | .postInc => 0b10#2
  | .postDec => 0b11#2

/-- The word of an instruction, from the patterns of R113; CLRW's don't-care bits are written 0 (R115, D8). -/
def encode : Instr → ProgWord
  | .addwf f d => 0b000111#6 ++ destBit d ++ f
  | .addwfc f d => 0b111101#6 ++ destBit d ++ f
  | .andwf f d => 0b000101#6 ++ destBit d ++ f
  | .asrf f d => 0b110111#6 ++ destBit d ++ f
  | .lslf f d => 0b110101#6 ++ destBit d ++ f
  | .lsrf f d => 0b110110#6 ++ destBit d ++ f
  | .clrf f => 0b0000011#7 ++ f
  | .clrw => 0b00000100000000#14
  | .comf f d => 0b001001#6 ++ destBit d ++ f
  | .decf f d => 0b000011#6 ++ destBit d ++ f
  | .incf f d => 0b001010#6 ++ destBit d ++ f
  | .iorwf f d => 0b000100#6 ++ destBit d ++ f
  | .movf f d => 0b001000#6 ++ destBit d ++ f
  | .movwf f => 0b0000001#7 ++ f
  | .rlf f d => 0b001101#6 ++ destBit d ++ f
  | .rrf f d => 0b001100#6 ++ destBit d ++ f
  | .subwf f d => 0b000010#6 ++ destBit d ++ f
  | .subwfb f d => 0b111011#6 ++ destBit d ++ f
  | .swapf f d => 0b001110#6 ++ destBit d ++ f
  | .xorwf f d => 0b000110#6 ++ destBit d ++ f
  | .decfsz f d => 0b001011#6 ++ destBit d ++ f
  | .incfsz f d => 0b001111#6 ++ destBit d ++ f
  | .bcf f b => 0b0100#4 ++ b ++ f
  | .bsf f b => 0b0101#4 ++ b ++ f
  | .btfsc f b => 0b0110#4 ++ b ++ f
  | .btfss f b => 0b0111#4 ++ b ++ f
  | .addlw k => 0b111110#6 ++ k
  | .andlw k => 0b111001#6 ++ k
  | .iorlw k => 0b111000#6 ++ k
  | .movlb k => 0b000000001#9 ++ k
  | .movlp k => 0b1100011#7 ++ k
  | .movlw k => 0b110000#6 ++ k
  | .sublw k => 0b111100#6 ++ k
  | .xorlw k => 0b111010#6 ++ k
  | .bra k => 0b11001#5 ++ k
  | .brw => 0b00000000001011#14
  | .call k => 0b100#3 ++ k
  | .callw => 0b00000000001010#14
  | .goto k => 0b101#3 ++ k
  | .retfie => 0b00000000001001#14
  | .retlw k => 0b110100#6 ++ k
  | .ret => 0b00000000001000#14
  | .clrwdt => 0b00000001100100#14
  | .nop => 0b00000000000000#14
  | .optionW => 0b00000001100010#14
  | .reset => 0b00000000000001#14
  | .sleep => 0b00000001100011#14
  | .tris f => 0b00000001100#11 ++ f
  | .addfsr n k => 0b1100010#7 ++ fsrBit n ++ k
  | .moviwMod n mm => 0b00000000010#11 ++ fsrBit n ++ modeBits mm
  | .moviwIdx n k => 0b1111110#7 ++ fsrBit n ++ k
  | .movwiMod n mm => 0b00000000011#11 ++ fsrBit n ++ modeBits mm
  | .movwiIdx n k => 0b1111111#7 ++ fsrBit n ++ k

end Sys2Proof
end

