-- ==== Sys2Proof/Config.lean ====
section
/-! DEFINITION. What an implementation fixes (`00_scope.md` R6, `10_state.md` R44) and the free values:
opaque constants that stand for what the spec leaves unknown. -/

namespace Sys2Proof

/-- `DEVICE`: which of the two memory sizes the chip has (R1, R6, D27). -/
inductive Device where
  | pic1508
  | pic1509
deriving DecidableEq, Repr

/-- `WDT_MODE`, the WDTE field of the configuration words (R44). -/
inductive WdtMode where
  /-- WDTE = 00: Watchdog disabled. -/
  | disabled
  /-- WDTE = 01: controlled by the SWDTEN bit of WDTCON. -/
  | software
  /-- WDTE = 10: enabled while running and disabled in Sleep. -/
  | awakeOnly
  /-- WDTE = 11: always enabled. -/
  | always
deriving DecidableEq, Repr

/-- The configuration parameters that change behaviour (R6, R44). No step changes them. -/
structure ChipConfig where
  device : Device
  /-- `STVREN`: a stack overflow or underflow resets the device. -/
  stvren : Bool
  wdtMode : WdtMode
deriving DecidableEq, Repr

namespace Config

/-- FREE VALUE (log 3). What a byte of RAM that nothing has written since power-on number `epoch` reads as: the
spec calls it unknown (R45, D31), never 0. The same location reads the same until it is written. -/
opaque ramUnknown (epoch addr : Nat) : Byte

/-- FREE VALUE (log 4). Stack entry `i` after power-on number `epoch` (R45: unknown). -/
opaque stackUnknown (epoch i : Nat) : PC

/-- FREE VALUE (log 5). The `i`-th shadow register (address 0xFE4 + `i`) after power-on number `epoch` (R39, R45: unknown). -/
opaque shadowUnknown (epoch i : Nat) : Byte

/-- FREE VALUE (log 6). PCON bit nBOR after power-on number `epoch` (R34, R45: unknown). -/
opaque nBorUnknown (epoch : Nat) : Bool

/-- FREE VALUE (log 7). Z : DC : C after the brown-out that is reset number `epoch` (U13: any value). -/
opaque brownOutFlags (epoch : Nat) : BitVec 3

/-- FREE VALUE (log 8). `SfrRead`: what the `n`-th read of a platform register answers, at data address `a`
(R6, R76, U17). -/
opaque sfrRead (n : Nat) (a : DataAddr) : Byte

end Config
end Sys2Proof
end

