-- ==== Sys2Proof/Machine/DataMap.lean ====
section
/-! DEFINITION. The numbers of the chip that the spec gives as configuration data: memory sizes, vectors, which data
addresses are RAM, and the reset values of R45. -/

namespace Sys2Proof.Machine

/-- `PROG_WORDS` (R6, R71). -/
def progWords : Device → Nat
  | .pic1508 => 4096
  | .pic1509 => 8192

/-- An erased program word (R71). -/
def erasedWord : ProgWord := 0x3FFF#14

/-- `RESET_VECTOR` (R6, R84). -/
def resetVector : PC := 0x0000#15

/-- `INT_VECTOR` (R6, R84). -/
def intVector : PC := 0x0004#15

/-- STKPTR of the empty stack (R32). -/
def stkptrEmpty : BitVec 5 := 0x1F#5

/-- STKPTR with sixteen entries in use (R32). -/
def stkptrFull : BitVec 5 := 0x0F#5

/-- Whether a bank's offset is implemented general purpose RAM (R74). -/
def gprImplemented (dev : Device) (bank off : Nat) : Bool :=
  match dev with
  | .pic1508 => decide (0x20 ≤ off ∧ off ≤ 0x6F ∧ bank ≤ 2)
  | .pic1509 => decide (0x20 ≤ off ∧ ((off ≤ 0x6F ∧ bank ≤ 5) ∨ (off ≤ 0x2F ∧ bank = 6)))

/-- The bits of TRISA that instructions write (R36: 5, 4, 2, 1, 0). -/
def trisaWritable : Byte := 0x37#8

/-- The bits of TRISA that read 1 whatever is written (R36: bit 3). -/
def trisaFixedOnes : Byte := 0x08#8

/-- The bits of TRISB that instructions write (R36: 7 to 4). -/
def trisbWritable : Byte := 0xF0#8

/-- The bits of WDTCON that are implemented (R37: 5 to 0). -/
def wdtconWritable : Byte := 0x3F#8

/-- Reset values (R45, R36, R37). -/
def optionRegReset : Byte := 0xFF#8
def trisaReset : Byte := 0x3F#8
def trisbReset : Byte := 0xF0#8
def triscReset : Byte := 0xFF#8
def wdtconReset : Byte := 0x16#8

end Sys2Proof.Machine
end

