-- ==== Sys2Proof/Machine/State.lean ====
section
/-! DEFINITION. The machine's state as plain data (`10_state.md`), its reasons to stop, and the state after reset. -/

namespace Sys2Proof.Machine

/-- PCON (R34). Bit 5 is not implemented and has no field. -/
structure Pcon where
  stkovf : Bool
  stkunf : Bool
  nRWDT : Bool
  nRMCLR : Bool
  nRI : Bool
  nPOR : Bool
  nBOR : Bool
deriving DecidableEq, Repr

/-- The shadow registers (R39), each at its implemented width. -/
structure Shadow where
  /-- STATUS_SHAD: Z, DC, C in bits 2 to 0. -/
  status : BitVec 3
  wreg : Byte
  bsr : BitVec 5
  pclath : BitVec 7
  fsr0l : Byte
  fsr0h : Byte
  fsr1l : Byte
  fsr1h : Byte
deriving DecidableEq, Repr

/-- Where a wake-up with GIE = 1 stands (R312): "the instruction after SLEEP is executed and then interrupt entry". -/
inductive WakeStage where
  /-- No such wake-up is in progress. -/
  | settled
  /-- Just awake: the instruction after SLEEP comes first, before any interrupt. -/
  | resumeFirst
  /-- That instruction has been executed: interrupt entry comes next. -/
  | entryDue
deriving DecidableEq, Repr

/-- The reset causes (R350). -/
inductive ResetCause where
  | powerOn
  | brownOut
  | mclr
  | watchdogTimeout
  | resetInstruction
  | stackOverflow
  | stackUnderflow
deriving DecidableEq, Repr

/-- The causes the platform delivers as `ExternalReset` (R350). -/
inductive ExternalCause where
  | powerOn
  | brownOut
  | mclr
deriving DecidableEq, Repr

/-- What the platform can do to the core's interrupt inputs between two CPU steps (R302, R33). -/
inductive PlatformEvent where
  /-- The peripheral request line `IrqLine()` takes this level. -/
  | irqLine (level : Bool)
  /-- Timer0 overflows: TMR0IF is set. -/
  | tmr0Overflow
  /-- An edge on the INT pin: INTF is set. -/
  | intEdge
  /-- The OR of the per-pin change flags takes this level: IOCIF. -/
  | pinChange (level : Bool)
deriving DecidableEq, Repr

/-- Which agent moves in a step, and how (R11): the CPU, the platform, or the Watchdog. -/
inductive Turn where
  | cpu
  | platform (e : PlatformEvent)
  | externalReset (cause : ExternalCause)
  /-- Time passes for the Watchdog, less than its period. -/
  | wdtRun
  /-- The Watchdog's period ends (R311); only an enabled Watchdog can. -/
  | wdtTimeout
deriving DecidableEq, Repr

/-- The machine's state. INVENTORY.md lists each field with its rule and reset value. -/
structure State where
  /-- W (R20). -/
  w : Byte
  /-- PC: the address of the instruction to execute (R27). -/
  pc : PC
  /-- STATUS bit 0 (R22, R23). -/
  c : Bool
  /-- STATUS bit 1. -/
  dc : Bool
  /-- STATUS bit 2. -/
  z : Bool
  /-- STATUS bit 3. -/
  nPD : Bool
  /-- STATUS bit 4. -/
  nTO : Bool
  /-- BSR (R25). -/
  bsr : BitVec 5
  /-- PCLATH (R26). -/
  pclath : BitVec 7
  /-- FSR0H:FSR0L (R29). -/
  fsr0 : FsrAddr
  /-- FSR1H:FSR1L (R29). -/
  fsr1 : FsrAddr
  /-- STKPTR (R32). -/
  stkptr : BitVec 5
  /-- The return stack's sixteen entries (R31, R32). -/
  stack : Vector PC 16
  /-- INTCON (R33). -/
  intcon : Byte
  /-- PCON (R34). -/
  pcon : Pcon
  /-- OPTION_REG (R35). -/
  optionReg : Byte
  /-- TRISA (R36). -/
  trisa : Byte
  /-- TRISB (R36). -/
  trisb : Byte
  /-- TRISC (R36). -/
  trisc : Byte
  /-- WDTCON (R37). -/
  wdtcon : Byte
  /-- The shadow registers (R39). -/
  shadow : Shadow
  /-- The Sleep state (R38). -/
  asleep : Bool
  /-- Where a wake-up with GIE = 1 stands (R312; log 13). -/
  wake : WakeStage
  /-- The Watchdog's one bit, "running since the last clear" (R37; log 14). -/
  wdtRunning : Bool
  /-- The level of the platform's `IrqLine()` (R302; log 12). -/
  irqLine : Bool
  /-- General purpose and common RAM, the bytes written since power-on, by rising data address (R73, R74; log 3). -/
  ram : List Host.Cell
  /-- Program memory, the words that are not erased, by rising address (R71; log 17). -/
  prog : List (Nat × ProgWord)
  /-- The chip's configuration (R44); no step changes it (log 2). -/
  config : ChipConfig
  /-- The model's own: how many power-on and brown-out resets there were; it names the unknown contents (log 3). -/
  powerOns : Nat
  /-- The model's own: how many platform registers have been read (log 8). -/
  sfrReads : Nat
  /-- The model's own observer: instruction cycles (R360, R361; log 15). -/
  cycles : Nat
  /-- The model's own: who moves next; an empty list is the CPU (R11; log 11). -/
  schedule : List Turn
deriving DecidableEq, Repr

/-- The hardware has no fault (R300): no step stops with one, so there is no constructor. -/
inductive Fault
deriving DecidableEq, Repr

/-- Why the model gives no next state. The last four are the spec's own refusals (R317). -/
inductive Refusal where
  /-- An arm of `exec` without a meaning; none is left. Safe. -/
  | notModelled (mnemonic : String)
  /-- Raised by the step on a word that matches no row of the opcode table (R114, D7). Safe: nothing can be proved of
  a run beyond it. -/
  | unassignedOpcode (iw : ProgWord)
  /-- Raised by an access through a pointer to an INDF address (R79, D21). Safe, as above. -/
  | indirectINDF
  /-- Raised by a push on a full or a pop of an empty stack with STVREN = 0 (R32, D6). Safe, as above. -/
  | stackWrap
  /-- Raised by DECFSZ and INCFSZ with d = 1 whose destination is PCL (R28, D25). Safe, as above. -/
  | skipOnPCL
deriving DecidableEq, Repr

/-- The three outcomes of a meaning or a step. -/
abbrev Result := Host.Outcome State Fault Refusal

/-- PCON after a power-on reset, `00-1 110x` (R352); the unknown bit is free (log 6). -/
def Pcon.powerOn (epoch : Nat) : Pcon :=
  { stkovf := false, stkunf := false, nRWDT := true, nRMCLR := true, nRI := true, nPOR := false
    nBOR := Config.nBorUnknown epoch }

/-- The shadow registers after power-on: unknown (R39, R45; log 5). -/
def Shadow.powerOn (epoch : Nat) : Shadow :=
  { status := (Config.shadowUnknown epoch 0).setWidth 3
    wreg := Config.shadowUnknown epoch 1
    bsr := (Config.shadowUnknown epoch 2).setWidth 5
    pclath := (Config.shadowUnknown epoch 3).setWidth 7
    fsr0l := Config.shadowUnknown epoch 4
    fsr0h := Config.shadowUnknown epoch 5
    fsr1l := Config.shadowUnknown epoch 6
    fsr1h := Config.shadowUnknown epoch 7 }

/-- The stack entries after power-on: unknown (R45; log 4). -/
def stackPowerOn (epoch : Nat) : Vector PC 16 := Vector.ofFn fun i => Config.stackUnknown epoch i.val

/-- The machine right after a power-on reset (R45 first column, R351), erased, with the CPU to move. -/
def State.reset : State :=
  { w := 0x00#8, pc := resetVector, c := false, dc := false, z := false, nPD := true, nTO := true
    bsr := 0#5, pclath := 0#7, fsr0 := 0#16, fsr1 := 0#16
    stkptr := stkptrEmpty, stack := stackPowerOn 0
    intcon := 0x00#8, pcon := Pcon.powerOn 0, optionReg := optionRegReset
    trisa := trisaReset, trisb := trisbReset, trisc := triscReset, wdtcon := wdtconReset
    shadow := Shadow.powerOn 0
    asleep := false, wake := .settled, wdtRunning := false, irqLine := false
    ram := [], prog := []
    config := { device := .pic1509, stvren := true, wdtMode := .disabled }
    powerOns := 0, sfrReads := 0, cycles := 0, schedule := [] }

end Sys2Proof.Machine
end

