-- ==== Sys2Proof/Machine/Flags.lean ====
section
/-! DEFINITION. What the arithmetic unit computes: a result byte and the flags it affects (`40_byte_oriented.md` R140 c,
`10_state.md` R22, `49_cross_family_laws.md` R280, R282). -/

namespace Sys2Proof.Machine

/-- A result and the new value of each flag the instruction affects; `none` is a flag it does not affect. -/
structure AluResult where
  value : Byte
  c : Option Bool := none
  dc : Option Bool := none
  z : Option Bool := none
deriving DecidableEq, Repr

/-- The instruction is one that affects any of Z, DC, C (R24 c). -/
def AluResult.affects (r : AluResult) : Bool := r.c.isSome || r.dc.isSome || r.z.isSome

/-- Write the flags the instruction affects; the others keep their value (R22). -/
def State.applyFlags (s : State) (r : AluResult) : State :=
  { s with c := r.c.getD s.c, dc := r.dc.getD s.dc, z := r.z.getD s.z }

/-- `SetZ`: 1 iff the 8-bit result is 0x00 (R140 c). -/
def isZero (r : Byte) : Bool := r == 0x00#8

/-- A carry or a flag as a one-bit number. -/
def carryBit (b : Bool) : BitVec 1 := BitVec.ofBool b

/-- `Add8(x, y, cin)` (R140 c): C is the carry out of bit 7, DC the carry out of bit 3. -/
def add8 (x y : Byte) (cin : Bool) : AluResult :=
  let s : BitVec 9 := x.setWidth 9 + y.setWidth 9 + (carryBit cin).setWidth 9
  let h : BitVec 5 := (x.setWidth 4).setWidth 5 + (y.setWidth 4).setWidth 5 + (carryBit cin).setWidth 5
  let r := s.setWidth 8
  { value := r, c := some (s.getLsbD 8), dc := some (h.getLsbD 4), z := some (isZero r) }

/-- `x - y` by the 2's complement method, `Add8(x, ~y, 1)` (R140 c). -/
def sub8 (x y : Byte) : AluResult := add8 x (~~~y) true

/-- `x - y` with borrow, `Add8(x, ~y, C)` (R140 c, R158). -/
def subb8 (x y : Byte) (c : Bool) : AluResult := add8 x (~~~y) c

/-- A result that affects Z alone. -/
def aluZ (r : Byte) : AluResult := { value := r, z := some (isZero r) }

/-- A result that affects no flag. -/
def aluPlain (r : Byte) : AluResult := { value := r }

/-- ASRF (R144, R282): bit 7 stays, C takes bit 0. -/
def asr8 (a : Byte) : AluResult :=
  let r : Byte := carryBit (a.getLsbD 7) ++ a.extractLsb' 1 7
  { value := r, c := some (a.getLsbD 0), z := some (isZero r) }

/-- LSLF (R145, R282): 0 enters, C takes bit 7. -/
def lsl8 (a : Byte) : AluResult :=
  let r : Byte := a.extractLsb' 0 7 ++ 0#1
  { value := r, c := some (a.getLsbD 7), z := some (isZero r) }

/-- LSRF (R146, R282): 0 enters, C takes bit 0. -/
def lsr8 (a : Byte) : AluResult :=
  let r : Byte := 0#1 ++ a.extractLsb' 1 7
  { value := r, c := some (a.getLsbD 0), z := some (isZero r) }

/-- RLF (R155, R282): the old C enters, C takes bit 7; Z is not affected. -/
def rl8 (a : Byte) (c : Bool) : AluResult :=
  { value := a.extractLsb' 0 7 ++ carryBit c, c := some (a.getLsbD 7) }

/-- RRF (R156, R282): the old C enters, C takes bit 0; Z is not affected. -/
def rr8 (a : Byte) (c : Bool) : AluResult :=
  { value := carryBit c ++ a.extractLsb' 1 7, c := some (a.getLsbD 0) }

/-- SWAPF (R159): the nibbles change places. -/
def swap8 (a : Byte) : Byte := a.extractLsb' 0 4 ++ a.extractLsb' 4 4

/-- `1 << b` for a bit number (R181, R182). -/
def bitMask (b : BitVec 3) : Byte := 1#8 <<< b.toNat

end Sys2Proof.Machine
end

