-- ==== Sys2Proof/Machine/Memory.lean ====
section
/-! DEFINITION. The two memories as lists of (address, cell) pairs with strictly rising addresses: RAM (R73, R74) and
program memory (R71). -/

namespace Sys2Proof.Machine

/-- The cell listed at an address. -/
def cellAt {α : Type} : List (Nat × α) → Nat → Option α
  | [], _ => none
  | (b, v) :: rest, a => if a = b then some v else cellAt rest a

/-- List the cell `v` at address `a`, in its place. -/
def putCell {α : Type} : List (Nat × α) → Nat → α → List (Nat × α)
  | [], a, v => [(a, v)]
  | (b, u) :: rest, a, v =>
    if a < b then (a, v) :: (b, u) :: rest
    else if a = b then (a, v) :: rest
    else (b, u) :: putCell rest a v

/-- List nothing at address `a`. -/
def dropCell {α : Type} : List (Nat × α) → Nat → List (Nat × α)
  | [], _ => []
  | (b, u) :: rest, a => if a = b then rest else (b, u) :: dropCell rest a

/-- Addresses rise strictly, from `lo` on. -/
def risingFrom {α : Type} (lo : Nat) : List (Nat × α) → Bool
  | [] => true
  | (b, _) :: rest => decide (lo ≤ b) && risingFrom (b + 1) rest

/-- The data addresses that key RAM: the common RAM by its bank 0 address (R73), general purpose RAM by its own (R74). -/
def ramAddress (dev : Device) (a : Nat) : Bool :=
  decide (0x70 ≤ a ∧ a ≤ 0x7F) || gprImplemented dev (a / 128) (a % 128)

/-- The canonical form of RAM: rising addresses, each one implemented. An unlisted byte holds no value (log 3). -/
def Memory.wf (dev : Device) (m : List Host.Cell) : Bool :=
  risingFrom 0 m && m.all fun cell => ramAddress dev cell.1

/-- The canonical form of program memory: rising addresses, each one implemented, and no word listed as erased. -/
def ProgMemory.wf (dev : Device) (m : List (Nat × ProgWord)) : Bool :=
  risingFrom 0 m && m.all fun cell => decide (cell.1 < progWords dev) && cell.2 != erasedWord

/-- Read one byte of RAM: what was last written, or the unknown content of this power-on (R45, R86, D31). -/
def State.ramByte (s : State) (a : Nat) : Byte := (cellAt s.ram a).getD (Config.ramUnknown s.powerOns a)

/-- Write one byte of RAM. -/
def State.setRam (s : State) (a : Nat) (v : Byte) : State := { s with ram := putCell s.ram a v }

/-- Where a 15-bit program address falls in the implemented words (R71: it wraps). -/
def State.progIndex (s : State) (a : PC) : Nat := a.toNat % progWords s.config.device

/-- `ProgRead(a)` (R71); a word that is not listed is erased. -/
def State.progRead (s : State) (a : PC) : ProgWord := (cellAt s.prog (s.progIndex a)).getD erasedWord

/-- Program memory with the word `v` at `a` in canonical form: an erased word is not listed. For loading a program
from outside (R41); no instruction writes program memory (R89). -/
def progPlace (m : List (Nat × ProgWord)) (a : Nat) (v : ProgWord) : List (Nat × ProgWord) :=
  if v = erasedWord then dropCell m a else putCell m a v

/-- The state with the word `v` in program memory where the next fetch reads. -/
def State.placeAtPc (s : State) (v : ProgWord) : State := { s with prog := progPlace s.prog (s.progIndex s.pc) v }

end Sys2Proof.Machine
end

