-- ==== Sys2Proof/Machine/Operands.lean ====
section
/-! DEFINITION. Operands (`20_memory.md` R72 to R79, `10_state.md` R23 to R40): where an operand lies, what it reads as,
what a write to it does; the delivery of a result and the pointer modes. -/

namespace Sys2Proof.Machine

/-- What one data access reaches: a register, a byte of RAM, a platform register, the low byte of a program word, or
nothing (reads 0, a write is ignored). -/
inductive Loc where
  | pcl
  | status
  | fsr0l
  | fsr0h
  | fsr1l
  | fsr1h
  | bsr
  | wreg
  | pclath
  | intcon
  | trisa
  | trisb
  | trisc
  | optionReg
  | pcon
  | wdtcon
  | statusShad
  | wregShad
  | bsrShad
  | pclathShad
  | fsr0lShad
  | fsr0hShad
  | fsr1lShad
  | fsr1hShad
  | stkptr
  | tosl
  | tosh
  | ram (a : Nat)
  | platform (a : DataAddr)
  | prog (a : PC)
  | void
deriving DecidableEq, Repr

/-- The core registers at offsets 0x02 to 0x0B of every bank (R40); 0x00 and 0x01 are INDF0, INDF1. -/
def coreRegisters : List (BitVec 7 × Loc) := [
  (0x02#7, .pcl), (0x03#7, .status), (0x04#7, .fsr0l), (0x05#7, .fsr0h), (0x06#7, .fsr1l), (0x07#7, .fsr1h),
  (0x08#7, .bsr), (0x09#7, .wreg), (0x0A#7, .pclath), (0x0B#7, .intcon) ]

/-- The registers at bank-specific addresses that the spec names (R73). -/
def namedRegisters : List (DataAddr × Loc) := [
  (0x08C#12, .trisa), (0x08D#12, .trisb), (0x08E#12, .trisc),
  (0x095#12, .optionReg), (0x096#12, .pcon), (0x097#12, .wdtcon),
  (0xFE4#12, .statusShad), (0xFE5#12, .wregShad), (0xFE6#12, .bsrShad), (0xFE7#12, .pclathShad),
  (0xFE8#12, .fsr0lShad), (0xFE9#12, .fsr0hShad), (0xFEA#12, .fsr1lShad), (0xFEB#12, .fsr1hShad),
  (0xFED#12, .stkptr), (0xFEE#12, .tosl), (0xFEF#12, .tosh) ]

/-- A bank-specific address that names no register and no RAM: where a bank would have general purpose RAM, nothing is
implemented (R73, R74); elsewhere it is the platform's (R76, R77; log 9). -/
def unnamedLoc (a : DataAddr) : Loc :=
  let off := a.toNat % 128
  if 0x20 ≤ off ∧ off ≤ 0x6F ∧ a.toNat / 128 < 30 then .void else .platform a

/-- Which location a 12-bit data address is: the case list of `DataRead` and `DataWrite` (R76, R77), INDF offsets
refused (R79). -/
def locateData (dev : Device) (a : DataAddr) : Except Refusal Loc :=
  let off := a.toNat % 128
  if off ≤ 0x01 then .error .indirectINDF
  else match coreRegisters.lookup (a.setWidth 7) with
    | some loc => .ok loc
    | none =>
      if 0x70 ≤ off then .ok (.ram off)
      else if gprImplemented dev (a.toNat / 128) off then .ok (.ram a.toNat)
      else match namedRegisters.lookup a with
        | some loc => .ok loc
        | none => .ok (unnamedLoc a)

/-- Which location linear address 0x2000 + `i` is (R75, R76): implemented general purpose RAM, or nothing (log 10). -/
def locateLinear (dev : Device) (i : Nat) : Loc :=
  let bank := i / 80
  let off := 0x20 + i % 80
  if gprImplemented dev bank off then .ram (bank * 128 + off) else .void

/-- Which location a 16-bit address of the FSR space is (R75 to R77). -/
def locateFsr (dev : Device) (a : FsrAddr) : Except Refusal Loc :=
  if a.getLsbD 15 then .ok (.prog (a.setWidth 15))
  else if a.toNat ≤ 0x0FFF then locateData dev (a.setWidth 12)
  else if 0x2000 ≤ a.toNat ∧ a.toNat ≤ 0x29AF then .ok (locateLinear dev (a.toNat - 0x2000))
  else .ok .void

/-- `FSR[n]` (R29). -/
def State.fsr (s : State) : FsrSel → FsrAddr
  | .fsr0 => s.fsr0
  | .fsr1 => s.fsr1

/-- `FSR[n] <- v` (R29). -/
def State.setFsr (s : State) (n : FsrSel) (v : FsrAddr) : State :=
  match n with
  | .fsr0 => { s with fsr0 := v }
  | .fsr1 => { s with fsr1 := v }

/-- Which location file operand `f` is: redirected through a pointer for f = 0 and 1, else `BSR : f` (R72, R78). It is
computed once, from the state at the start of the instruction. -/
def locateFile (s : State) (f : FileAddr) : Except Refusal Loc :=
  if f = 0x00#7 then locateFsr s.config.device s.fsr0
  else if f = 0x01#7 then locateFsr s.config.device s.fsr1
  else locateData s.config.device (s.bsr ++ f)

/-- The stack entry that STKPTR selects, `stack[STKPTR[3:0]]` (R32). -/
def stackSlot (p : BitVec 5) : Fin 16 := ⟨p.toNat % 16, Nat.mod_lt _ (by decide)⟩

/-- Read the selected entry (R32). -/
def State.stackEntry (s : State) (p : BitVec 5) : PC := s.stack[stackSlot p]

/-- Write the selected entry (R32). -/
def State.setStackEntry (s : State) (p : BitVec 5) (v : PC) : State :=
  { s with stack := s.stack.set (stackSlot p).val v (stackSlot p).isLt }

/-- What TOSH:TOSL read as: the selected entry, 0 when empty with STVREN = 1 (R32). -/
def State.tosRead (s : State) : PC :=
  if s.config.stvren ∧ s.stkptr = stkptrEmpty then 0#15 else s.stackEntry s.stkptr

/-- STATUS as read: `000 : nTO : nPD : Z : DC : C` (R23, R76). -/
def State.statusByte (s : State) : Byte :=
  0b000#3 ++ carryBit s.nTO ++ carryBit s.nPD ++ carryBit s.z ++ carryBit s.dc ++ carryBit s.c

/-- PCON as read, bit 5 as 0 (R34). -/
def Pcon.toByte (p : Pcon) : Byte :=
  carryBit p.stkovf ++ carryBit p.stkunf ++ 0b0#1 ++ carryBit p.nRWDT ++ carryBit p.nRMCLR ++ carryBit p.nRI
    ++ carryBit p.nPOR ++ carryBit p.nBOR

/-- PCON as written: every implemented bit (R34). -/
def Pcon.ofByte (v : Byte) : Pcon :=
  { stkovf := v.getLsbD 7, stkunf := v.getLsbD 6, nRWDT := v.getLsbD 4, nRMCLR := v.getLsbD 3, nRI := v.getLsbD 2
    nPOR := v.getLsbD 1, nBOR := v.getLsbD 0 }

/-- What a location reads as (R76). PCL reads as the low byte of the address of the next instruction (R28). -/
def readLoc (s : State) : Loc → Byte
  | .pcl => (s.pc + 1).setWidth 8
  | .status => s.statusByte
  | .fsr0l => s.fsr0.setWidth 8
  | .fsr0h => s.fsr0.extractLsb' 8 8
  | .fsr1l => s.fsr1.setWidth 8
  | .fsr1h => s.fsr1.extractLsb' 8 8
  | .bsr => s.bsr.setWidth 8
  | .wreg => s.w
  | .pclath => s.pclath.setWidth 8
  | .intcon => s.intcon
  | .trisa => s.trisa
  | .trisb => s.trisb
  | .trisc => s.trisc
  | .optionReg => s.optionReg
  | .pcon => s.pcon.toByte
  | .wdtcon => s.wdtcon
  | .statusShad => s.shadow.status.setWidth 8
  | .wregShad => s.shadow.wreg
  | .bsrShad => s.shadow.bsr.setWidth 8
  | .pclathShad => s.shadow.pclath.setWidth 8
  | .fsr0lShad => s.shadow.fsr0l
  | .fsr0hShad => s.shadow.fsr0h
  | .fsr1lShad => s.shadow.fsr1l
  | .fsr1hShad => s.shadow.fsr1h
  | .stkptr => s.stkptr.setWidth 8
  | .tosl => s.tosRead.setWidth 8
  | .tosh => (s.tosRead.extractLsb' 8 7).setWidth 8
  | .ram a => s.ramByte a
  | .platform a => Config.sfrRead s.sfrReads a
  | .prog a => (s.progRead a).setWidth 8
  | .void => 0x00#8

/-- What a read changes: nothing but, for a platform register, the number of such reads (R83; log 8). -/
def afterRead (s : State) : Loc → State
  | .platform _ => { s with sfrReads := s.sfrReads + 1 }
  | .pcl | .status | .fsr0l | .fsr0h | .fsr1l | .fsr1h | .bsr | .wreg | .pclath | .intcon | .trisa | .trisb | .trisc
  | .optionReg | .pcon | .wdtcon | .statusShad | .wregShad | .bsrShad | .pclathShad | .fsr0lShad | .fsr0hShad
  | .fsr1lShad | .fsr1hShad | .stkptr | .tosl | .tosh | .ram _ | .prog _ | .void => s

/-- What a write does to everything but the PC (R77). `affects` says whether the instruction affects Z, DC or C: if
so, STATUS takes nothing from the result (R24). A write to PCL is a jump, which `store` makes (R28); a write to a
platform register leaves the model (SfrWrite; log 8); a write through program memory or to nothing is lost. -/
def writeLoc (s : State) (loc : Loc) (v : Byte) (affects : Bool) : State :=
  match loc with
  | .status => if affects then s else { s with z := v.getLsbD 2, dc := v.getLsbD 1, c := v.getLsbD 0 }
  | .fsr0l => { s with fsr0 := s.fsr0.extractLsb' 8 8 ++ v }
  | .fsr0h => { s with fsr0 := v ++ s.fsr0.extractLsb' 0 8 }
  | .fsr1l => { s with fsr1 := s.fsr1.extractLsb' 8 8 ++ v }
  | .fsr1h => { s with fsr1 := v ++ s.fsr1.extractLsb' 0 8 }
  | .bsr => { s with bsr := v.setWidth 5 }
  | .wreg => { s with w := v }
  | .pclath => { s with pclath := v.setWidth 7 }
  | .intcon => { s with intcon := v.extractLsb' 1 7 ++ s.intcon.extractLsb' 0 1 }
  | .trisa => { s with trisa := (v &&& trisaWritable) ||| trisaFixedOnes }
  | .trisb => { s with trisb := v &&& trisbWritable }
  | .trisc => { s with trisc := v }
  | .optionReg => { s with optionReg := v }
  | .pcon => { s with pcon := Pcon.ofByte v }
  | .wdtcon => { s with wdtcon := v &&& wdtconWritable }
  | .statusShad => { s with shadow := { s.shadow with status := v.setWidth 3 } }
  | .wregShad => { s with shadow := { s.shadow with wreg := v } }
  | .bsrShad => { s with shadow := { s.shadow with bsr := v.setWidth 5 } }
  | .pclathShad => { s with shadow := { s.shadow with pclath := v.setWidth 7 } }
  | .fsr0lShad => { s with shadow := { s.shadow with fsr0l := v } }
  | .fsr0hShad => { s with shadow := { s.shadow with fsr0h := v } }
  | .fsr1lShad => { s with shadow := { s.shadow with fsr1l := v } }
  | .fsr1hShad => { s with shadow := { s.shadow with fsr1h := v } }
  | .stkptr => { s with stkptr := v.setWidth 5 }
  | .tosl => s.setStackEntry s.stkptr ((s.stackEntry s.stkptr).extractLsb' 8 7 ++ v)
  | .tosh => s.setStackEntry s.stkptr (v.setWidth 7 ++ (s.stackEntry s.stkptr).extractLsb' 0 8)
  | .ram a => s.setRam a v
  | .pcl | .platform _ | .prog _ | .void => s

/-- Note 2 of TABLE 28-3: one more cycle when the access goes to program memory (R361, D23). -/
def Loc.note2 : Loc → Nat
  | .prog _ => 1
  | .pcl | .status | .fsr0l | .fsr0h | .fsr1l | .fsr1h | .bsr | .wreg | .pclath | .intcon | .trisa | .trisb | .trisc
  | .optionReg | .pcon | .wdtcon | .statusShad | .wregShad | .bsrShad | .pclathShad | .fsr0lShad | .fsr0hShad
  | .fsr1lShad | .fsr1hShad | .stkptr | .tosl | .tosh | .ram _ | .platform _ | .void => 0

/-- `pc <- t`, after `n` instruction cycles (R8, R361). -/
def State.continueAt (s : State) (t : PC) (n : Nat) : State := { s with pc := t, cycles := s.cycles + n }

/-- The PC after an instruction that wrote `v` to `loc`: a write to PCL jumps to `PCLATH[6:0] : v`, in two cycles
(R28, Note 1); any other goes on at `pc + 1`. -/
def State.continueAfterWrite (s : State) (loc : Loc) (v : Byte) : State :=
  if loc = .pcl then s.continueAt (s.pclath ++ v) 2 else s.continueAt (s.pc + 1) (1 + loc.note2)

/-- `FileWrite(f, v)` at the operand's location, and the next PC. -/
def State.store (s : State) (loc : Loc) (v : Byte) (affects : Bool) : State :=
  (writeLoc s loc v affects).continueAfterWrite loc v

/-- `Dest(d, f, r)` and the next PC (R140 b). -/
def State.deliver (s : State) (d : Dest) (loc : Loc) (r : AluResult) : State :=
  match d with
  | .w => { s with w := r.value }.continueAt (s.pc + 1) (1 + loc.note2)
  | .f => s.store loc r.value r.affects

/-- The template of an instruction that reads register f (R140 b): read once, compute, write the flags, deliver. -/
def byteOp (s : State) (f : FileAddr) (d : Dest) (op : Byte → AluResult) : Result :=
  match locateFile s f with
  | .error r => .refused r
  | .ok loc => .next (((afterRead s loc).applyFlags (op (readLoc s loc))).deliver d loc (op (readLoc s loc)))

/-- The template of an instruction that writes register f and does not read it (R147, R154, R82). -/
def fileStore (s : State) (f : FileAddr) (r : AluResult) : Result :=
  match locateFile s f with
  | .error e => .refused e
  | .ok loc => .next ((s.applyFlags r).store loc r.value r.affects)

/-- The PC of a skip instruction (R170): a taken skip is `pc + 2` in one more cycle. -/
def State.skipIf (s : State) (taken : Bool) (loc : Loc) : State :=
  if taken then s.continueAt (s.pc + 2) (2 + loc.note2) else s.continueAt (s.pc + 1) (1 + loc.note2)

/-- The template of DECFSZ and INCFSZ (R171, R172): no flag; skip if the result is 0; a destination PCL is refused. -/
def byteSkip (s : State) (f : FileAddr) (d : Dest) (op : Byte → Byte) : Result :=
  match locateFile s f with
  | .error r => .refused r
  | .ok loc =>
    let r := op (readLoc s loc)
    match d with
    | .w => .next ({ afterRead s loc with w := r }.skipIf (isZero r) loc)
    | .f =>
      if loc = .pcl then .refused .skipOnPCL
      else .next ((writeLoc (afterRead s loc) loc r false).skipIf (isZero r) loc)

/-- The template of BTFSC and BTFSS (R190, R191): skip if bit `b` of register f is `v`. -/
def bitSkip (s : State) (f : FileAddr) (b : BitVec 3) (v : Bool) : Result :=
  match locateFile s f with
  | .error r => .refused r
  | .ok loc => .next ((afterRead s loc).skipIf ((readLoc s loc).getLsbD b.toNat == v) loc)

/-- The template of a literal instruction that computes W (`44_literal.md`). -/
def literalOp (s : State) (r : AluResult) : Result :=
  .next ({ s.applyFlags r with w := r.value }.continueAt (s.pc + 1) 1)

/-- The pointer with which an mm form makes its access (R260 e): updated before it in the pre modes. -/
def pointerUsed (mm : PtrMode) (p : FsrAddr) : FsrAddr :=
  match mm with
  | .preInc => p + 1
  | .preDec => p - 1
  | .postInc | .postDec => p

/-- The pointer after the instruction, from the old pointer (R260 e). -/
def pointerAfter (mm : PtrMode) (p : FsrAddr) : FsrAddr :=
  match mm with
  | .preInc | .postInc => p + 1
  | .preDec | .postDec => p - 1

/-- The state in which an mm form makes its access: the pre modes have updated the pointer, the post modes have not
(R262, R264). -/
def State.beforeMove (s : State) (n : FsrSel) (mm : PtrMode) : State :=
  match mm with
  | .preInc | .preDec => s.setFsr n (pointerAfter mm (s.fsr n))
  | .postInc | .postDec => s

/-- The state after the move: the post modes set the whole pair from the old pointer `p` (R260 f, D33). -/
def State.afterMove (s : State) (n : FsrSel) (mm : PtrMode) (p : FsrAddr) : State :=
  match mm with
  | .preInc | .preDec => s
  | .postInc | .postDec => s.setFsr n (pointerAfter mm p)

/-- W takes the byte read at `loc`, and Z says whether it is zero (R262, R263, D30). -/
def State.loadW (s : State) (loc : Loc) : State :=
  { afterRead s loc with w := readLoc s loc, z := isZero (readLoc s loc) }

/-- The address of `k[FSRn]` (R260 e). -/
def State.indexed (s : State) (n : FsrSel) (k : BitVec 6) : FsrAddr := s.fsr n + k.signExtend 16

end Sys2Proof.Machine
end

