-- ==== Sys2Proof/Machine/BitOriented.lean ====
section
/-! DEFINITION. The bit-oriented operations: BCF, BSF (`42_bit_oriented.md` R180 to R182). -/

namespace Sys2Proof.Machine

/-- BCF: the byte is read, bit `b` cleared, and the whole byte written back; no flag of its own (R181, R180). -/
def execBcf (f : FileAddr) (b : BitVec 3) (s : State) : Result := byteOp s f .f fun a => aluPlain (a &&& ~~~(bitMask b))

/-- BSF: the byte is read, bit `b` set, and the whole byte written back; no flag of its own (R182, R180). -/
def execBsf (f : FileAddr) (b : BitVec 3) (s : State) : Result := byteOp s f .f fun a => aluPlain (a ||| bitMask b)

end Sys2Proof.Machine
end

