-- ==== Sys2Proof/Machine/BitSkip.lean ====
section
/-! DEFINITION. The bit-oriented skip operations (`43_bit_skip.md` R190, R191). -/

namespace Sys2Proof.Machine

/-- BTFSC: skip if bit `b` is 0 (R190). -/
def execBtfsc (f : FileAddr) (b : BitVec 3) (s : State) : Result := bitSkip s f b false

/-- BTFSS: skip if bit `b` is 1 (R191, C6). -/
def execBtfss (f : FileAddr) (b : BitVec 3) (s : State) : Result := bitSkip s f b true

end Sys2Proof.Machine
end

