-- ==== Sys2Proof/Machine/ByteOriented.lean ====
section
/-! DEFINITION. The byte-oriented file register operations (`40_byte_oriented.md` R140 to R160). -/

namespace Sys2Proof.Machine

/-- ADDWF: `r = W + f`; C, DC, Z (R141). -/
def execAddwf (f : FileAddr) (d : Dest) (s : State) : Result := byteOp s f d fun a => add8 s.w a false

/-- ADDWFC: `r = W + f + C`; C, DC, Z (R142). -/
def execAddwfc (f : FileAddr) (d : Dest) (s : State) : Result := byteOp s f d fun a => add8 s.w a s.c

/-- ANDWF: Z (R143). -/
def execAndwf (f : FileAddr) (d : Dest) (s : State) : Result := byteOp s f d fun a => aluZ (s.w &&& a)

/-- ASRF: C, Z (R144). -/
def execAsrf (f : FileAddr) (d : Dest) (s : State) : Result := byteOp s f d fun a => asr8 a

/-- LSLF: C, Z (R145). -/
def execLslf (f : FileAddr) (d : Dest) (s : State) : Result := byteOp s f d fun a => lsl8 a

/-- LSRF: C, Z (R146). -/
def execLsrf (f : FileAddr) (d : Dest) (s : State) : Result := byteOp s f d fun a => lsr8 a

/-- CLRF: the register is written 0x00 and not read; Z is 1 (R147, R82). -/
def execClrf (f : FileAddr) (s : State) : Result := fileStore s f { value := 0x00#8, z := some true }

/-- CLRW: W is 0x00, Z is 1 (R148). -/
def execClrw (s : State) : Result := literalOp s { value := 0x00#8, z := some true }

/-- COMF: Z (R149). -/
def execComf (f : FileAddr) (d : Dest) (s : State) : Result := byteOp s f d fun a => aluZ (~~~a)

/-- DECF: Z only (R150). -/
def execDecf (f : FileAddr) (d : Dest) (s : State) : Result := byteOp s f d fun a => aluZ (a - 1)

/-- INCF: Z only (R151). -/
def execIncf (f : FileAddr) (d : Dest) (s : State) : Result := byteOp s f d fun a => aluZ (a + 1)

/-- IORWF: Z (R152). -/
def execIorwf (f : FileAddr) (d : Dest) (s : State) : Result := byteOp s f d fun a => aluZ (s.w ||| a)

/-- MOVF: Z (R153). -/
def execMovf (f : FileAddr) (d : Dest) (s : State) : Result := byteOp s f d fun a => aluZ a

/-- MOVWF: the register takes W and is not read; no flag (R154, R82). -/
def execMovwf (f : FileAddr) (s : State) : Result := fileStore s f (aluPlain s.w)

/-- RLF: C only (R155). -/
def execRlf (f : FileAddr) (d : Dest) (s : State) : Result := byteOp s f d fun a => rl8 a s.c

/-- RRF: C only (R156). -/
def execRrf (f : FileAddr) (d : Dest) (s : State) : Result := byteOp s f d fun a => rr8 a s.c

/-- SUBWF: `r = f - W`; C, DC, Z (R157). -/
def execSubwf (f : FileAddr) (d : Dest) (s : State) : Result := byteOp s f d fun a => sub8 a s.w

/-- SUBWFB: `r = f - W - (1 - C)`; C, DC, Z (R158). -/
def execSubwfb (f : FileAddr) (d : Dest) (s : State) : Result := byteOp s f d fun a => subb8 a s.w s.c

/-- SWAPF: no flag (R159). -/
def execSwapf (f : FileAddr) (d : Dest) (s : State) : Result := byteOp s f d fun a => aluPlain (swap8 a)

/-- XORWF: Z (R160). -/
def execXorwf (f : FileAddr) (d : Dest) (s : State) : Result := byteOp s f d fun a => aluZ (s.w ^^^ a)

end Sys2Proof.Machine
end

