-- ==== Sys2Proof/Machine/ByteSkip.lean ====
section
/-! DEFINITION. The byte-oriented skip operations (`41_byte_skip.md` R170 to R172). -/

namespace Sys2Proof.Machine

/-- DECFSZ: `r = f - 1`, skip if it is 0 (R171, C7). -/
def execDecfsz (f : FileAddr) (d : Dest) (s : State) : Result := byteSkip s f d fun a => a - 1

/-- INCFSZ: `r = f + 1`, skip if it is 0 (R172, C7). -/
def execIncfsz (f : FileAddr) (d : Dest) (s : State) : Result := byteSkip s f d fun a => a + 1

end Sys2Proof.Machine
end

