-- ==== Sys2Proof/Machine/CompilerOptimized.lean ====
section
/-! DEFINITION. The C-compiler optimized operations (`47_compiler_optimized.md` R260 to R265). -/

namespace Sys2Proof.Machine

/-- ADDFSR: the whole pair, modulo 2^16; no flag (R261, C3). -/
def execAddfsr (n : FsrSel) (k : BitVec 6) (s : State) : Result :=
  .next ((s.setFsr n (s.indexed n k)).continueAt (s.pc + 1) 1)

/-- MOVIW with pre/post increment/decrement: W and Z from the byte moved (R262). -/
def execMoviwMod (n : FsrSel) (mm : PtrMode) (s : State) : Result :=
  match locateFsr s.config.device (pointerUsed mm (s.fsr n)) with
  | .error r => .refused r
  | .ok loc => .next ((((s.beforeMove n mm).loadW loc).afterMove n mm (s.fsr n)).continueAt (s.pc + 1) (1 + loc.note2))

/-- MOVIW k[FSRn]: W and Z from the byte moved; FSRn stays (R263). -/
def execMoviwIdx (n : FsrSel) (k : BitVec 6) (s : State) : Result :=
  match locateFsr s.config.device (s.indexed n k) with
  | .error r => .refused r
  | .ok loc => .next ((s.loadW loc).continueAt (s.pc + 1) (1 + loc.note2))

/-- MOVWI with pre/post increment/decrement: W to the byte, no flag (R264). -/
def execMovwiMod (n : FsrSel) (mm : PtrMode) (s : State) : Result :=
  match locateFsr s.config.device (pointerUsed mm (s.fsr n)) with
  | .error r => .refused r
  | .ok loc => .next (((writeLoc (s.beforeMove n mm) loc s.w false).afterMove n mm (s.fsr n)).continueAfterWrite loc s.w)

/-- MOVWI k[FSRn]: W to the byte, no flag; FSRn stays (R265). -/
def execMovwiIdx (n : FsrSel) (k : BitVec 6) (s : State) : Result :=
  match locateFsr s.config.device (s.indexed n k) with
  | .error r => .refused r
  | .ok loc => .next (s.store loc s.w false)

end Sys2Proof.Machine
end

