-- ==== Sys2Proof/Machine/Ops.lean ====
section
/-! DEFINITION. The shared operations beyond operands: the Watchdog, device resets (`70_reset_and_hazards.md`), the
return stack (`10_state.md` R32), interrupts, their return, Sleep and the platform (`60_exceptions.md`). -/

namespace Sys2Proof.Machine

/-! ### Watchdog (R37, R311) -/

/-- `WdtClear()`: counter and prescaler restart (R37, R240). -/
def State.wdtClear (s : State) : State := { s with wdtRunning := false }

/-- Whether the Watchdog is enabled (R311): by WDT_MODE, the Sleep state and SWDTEN (WDTCON bit 0). -/
def State.wdtEnabled (s : State) : Bool :=
  match s.config.wdtMode with
  | .disabled => false
  | .software => s.wdtcon.getLsbD 0
  | .awakeOnly => !s.asleep
  | .always => true

/-- The Watchdog's turn "time passes": an enabled Watchdog has run since the last clear (R37; log 14). -/
def State.wdtRun (s : State) : State := if s.wdtEnabled then { s with wdtRunning := true } else s

/-! ### Reset (R350 to R353) -/

/-- PCON by cause (R352); `epoch` names the unknown bit of a power-on. -/
def Pcon.afterReset (p : Pcon) (cause : ResetCause) (epoch : Nat) : Pcon :=
  match cause with
  | .powerOn => Pcon.powerOn epoch
  | .brownOut =>
    { stkovf := false, stkunf := false, nRWDT := true, nRMCLR := true, nRI := true, nPOR := p.nPOR, nBOR := false }
  | .mclr => { p with nRMCLR := false }
  | .watchdogTimeout => { p with nRWDT := false }
  | .resetInstruction => { p with nRI := false }
  | .stackOverflow => { p with stkovf := true }
  | .stackUnderflow => { p with stkunf := true }

/-- nTO by cause (R352). -/
def State.nToAfterReset (s : State) : ResetCause → Bool
  | .powerOn | .brownOut => true
  | .mclr => if s.asleep then true else s.nTO
  | .watchdogTimeout => false
  | .resetInstruction | .stackOverflow | .stackUnderflow => s.nTO

/-- nPD by cause (R352). -/
def State.nPdAfterReset (s : State) : ResetCause → Bool
  | .powerOn | .brownOut => true
  | .mclr => if s.asleep then false else s.nPD
  | .watchdogTimeout | .resetInstruction | .stackOverflow | .stackUnderflow => s.nPD

/-- What every device reset does (R351); W, FSRnL, Z, DC, C, RAM, stack entries and shadow registers stay. -/
def State.warmReset (s : State) (cause : ResetCause) : State :=
  { s with
    nTO := s.nToAfterReset cause, nPD := s.nPdAfterReset cause
    pcon := s.pcon.afterReset cause (s.powerOns + 1)
    pc := resetVector, bsr := 0#5, pclath := 0#7, intcon := 0x00#8, stkptr := stkptrEmpty
    fsr0 := 0x00#8 ++ s.fsr0.extractLsb' 0 8, fsr1 := 0x00#8 ++ s.fsr1.extractLsb' 0 8
    optionReg := optionRegReset, trisa := trisaReset, trisb := trisbReset, trisc := triscReset, wdtcon := wdtconReset
    wdtRunning := false, asleep := false, wake := .settled }

/-- What a power-on or brown-out reset does besides (R351): W, FSRnL, Z, DC, C take values, and RAM, the stack entries
and the shadow registers hold unknown contents, those of the new epoch (R45, D31). -/
def State.loseContents (s : State) (flags : BitVec 3) : State :=
  { s with
    w := 0x00#8, fsr0 := 0#16, fsr1 := 0#16
    z := flags.getLsbD 2, dc := flags.getLsbD 1, c := flags.getLsbD 0
    ram := [], stack := stackPowerOn (s.powerOns + 1), shadow := Shadow.powerOn (s.powerOns + 1)
    powerOns := s.powerOns + 1 }

/-- `DeviceReset(cause)` (R351, R352). After a brown-out Z, DC, C are free (U13; log 7). -/
def deviceReset (cause : ResetCause) (s : State) : State :=
  match cause with
  | .powerOn => (s.warmReset cause).loseContents 0b000#3
  | .brownOut => (s.warmReset cause).loseContents (Config.brownOutFlags (s.powerOns + 1))
  | .mclr | .watchdogTimeout | .resetInstruction | .stackOverflow | .stackUnderflow => s.warmReset cause

/-- The cause an external reset reports (R350). -/
def ExternalCause.toCause : ExternalCause → ResetCause
  | .powerOn => .powerOn
  | .brownOut => .brownOut
  | .mclr => .mclr

/-- `WdtTimeout()` (R311): awake it resets the device, asleep it wakes it; a disabled Watchdog has none. -/
def State.wdtTimeout (s : State) : State :=
  if s.wdtEnabled then
    if s.asleep then { s.wdtClear with nTO := false, nPD := false, asleep := false }
    else deviceReset .watchdogTimeout s
  else s

/-! ### The return stack (R32, R313) -/

/-- A stack operation's outcome: done, or the instruction ends here (a device reset or a refusal). -/
inductive Attempt (α : Type) where
  | done (a : α)
  | stop (o : Result)

/-- Overflow or underflow (R32): a device reset with STVREN = 1, a refusal with STVREN = 0. -/
def stackTrouble (cause : ResetCause) (s : State) : Result :=
  if s.config.stvren then .next (deviceReset cause s) else .refused .stackWrap

/-- `Push(v)` (R32). -/
def push (s : State) (v : PC) : Attempt State :=
  if s.stkptr = stkptrFull then .stop (stackTrouble .stackOverflow s)
  else .done ({ s with stkptr := s.stkptr + 1 }.setStackEntry (s.stkptr + 1) v)

/-- `Pop()` (R32): the entry, and the state with one entry fewer. -/
def pop (s : State) : Attempt (PC × State) :=
  if s.stkptr = stkptrEmpty then .stop (stackTrouble .stackUnderflow s)
  else .done (s.stackEntry s.stkptr, { s with stkptr := s.stkptr - 1 })

/-- The template of CALL and CALLW (R223, R224): push `pc + 1`, go to the target in two cycles. -/
def callTo (s : State) (target : PC) : Result :=
  match push s (s.pc + 1) with
  | .stop o => o
  | .done s' => .next (s'.continueAt target 2)

/-- The template of RETURN, RETLW and RETFIE (R226 to R228): pop, do the instruction's own effect, go to the popped
address in two cycles. -/
def returnWith (s : State) (effect : State → State) : Result :=
  match pop s with
  | .stop o => o
  | .done (t, s') => .next ((effect s').continueAt t 2)

/-! ### Interrupts (R302 to R305) -/

/-- GIE, INTCON bit 7 (R33). -/
def State.gie (s : State) : Bool := s.intcon.getLsbD 7

/-- `CoreIrq()`: TMR0IE & TMR0IF, INTE & INTF, IOCIE & IOCIF (R302, R33). -/
def State.coreIrq (s : State) : Bool :=
  (s.intcon.getLsbD 5 && s.intcon.getLsbD 2) || (s.intcon.getLsbD 4 && s.intcon.getLsbD 1)
    || (s.intcon.getLsbD 3 && s.intcon.getLsbD 0)

/-- `InterruptPendingIgnoringGIE()`: CoreIrq, or the peripheral line with PEIE (R302). -/
def State.irqPending (s : State) : Bool := s.coreIrq || (s.intcon.getLsbD 6 && s.irqLine)

/-- `InterruptRequest()` (R302). -/
def State.interruptRequest (s : State) : Bool := s.gie && s.irqPending

/-- Set or clear GIE, the other bits of INTCON unchanged. -/
def State.setGie (s : State) (b : Bool) : State := { s with intcon := carryBit b ++ s.intcon.extractLsb' 0 7 }

/-- The context that interrupt entry copies (R303). -/
def State.context (s : State) : Shadow :=
  { status := carryBit s.z ++ carryBit s.dc ++ carryBit s.c
    wreg := s.w, bsr := s.bsr, pclath := s.pclath
    fsr0l := s.fsr0.extractLsb' 0 8, fsr0h := s.fsr0.extractLsb' 8 8
    fsr1l := s.fsr1.extractLsb' 0 8, fsr1h := s.fsr1.extractLsb' 8 8 }

/-- `InterruptEntry()` (R303): clear GIE, push the PC, save the context, go to the vector. A full stack is R32's case. -/
def interruptEntry (s : State) : Result :=
  match push (s.setGie false) s.pc with
  | .stop o => o
  | .done s' => .next { s' with shadow := s.context, pc := intVector, wake := .settled }

/-- `RestoreShadows()` (R304). -/
def State.restoreShadows (s : State) : State :=
  { s with
    w := s.shadow.wreg
    z := s.shadow.status.getLsbD 2, dc := s.shadow.status.getLsbD 1, c := s.shadow.status.getLsbD 0
    bsr := s.shadow.bsr, pclath := s.shadow.pclath
    fsr0 := s.shadow.fsr0h ++ s.shadow.fsr0l, fsr1 := s.shadow.fsr1h ++ s.shadow.fsr1l }

/-- Return from interrupt (R226): pop, restore the context, set GIE. -/
def interruptReturn (s : State) : Result := returnWith s fun s' => s'.restoreShadows.setGie true

/-! ### Sleep and the platform (R244, R302, R312) -/

/-- Wake up if an enabled flag is pending (R312); with GIE = 1 the instruction after SLEEP comes first. -/
def State.wakeUp (s : State) : State :=
  if s.asleep && s.irqPending then
    { s with asleep := false, wake := if s.gie then .resumeFirst else .settled }
  else s

/-- The effect of SLEEP when it does sleep (R244): clear the Watchdog, nTO = 1, nPD = 0, asleep. -/
def State.enterSleep (s : State) : State := { s.wdtClear with nTO := true, nPD := false, asleep := true, wake := .settled }

/-- What a platform event does to the core's interrupt inputs (R302, R33). -/
def State.platformEvent (s : State) : PlatformEvent → State
  | .irqLine level => { s with irqLine := level }
  | .tmr0Overflow => { s with intcon := s.intcon ||| 0x04#8 }
  | .intEdge => { s with intcon := s.intcon ||| 0x02#8 }
  | .pinChange level => { s with intcon := s.intcon.extractLsb' 1 7 ++ carryBit level }

end Sys2Proof.Machine
end

