-- ==== Sys2Proof/Machine/Control.lean ====
section
/-! DEFINITION. The control operations (`45_control.md` R220 to R228). -/

namespace Sys2Proof.Machine

/-- The target of CALL and GOTO: `PCLATH[6:3] : k` (R223, R225, C8). -/
def State.pageTarget (s : State) (k : BitVec 11) : PC := s.pclath.extractLsb' 3 4 ++ k

/-- BRA: `pc + 1 + k`, k signed (R221, C10). -/
def execBra (k : BitVec 9) (s : State) : Result := .next (s.continueAt (s.pc + 1 + k.signExtend 15) 2)

/-- BRW: `pc + 1 + W`, W unsigned (R222, C9). -/
def execBrw (s : State) : Result := .next (s.continueAt (s.pc + 1 + s.w.setWidth 15) 2)

/-- CALL (R223). -/
def execCall (k : BitVec 11) (s : State) : Result := callTo s (s.pageTarget k)

/-- CALLW: to `PCLATH[6:0] : W` (R224). -/
def execCallw (s : State) : Result := callTo s (s.pclath ++ s.w)

/-- GOTO (R225). -/
def execGoto (k : BitVec 11) (s : State) : Result := .next (s.continueAt (s.pageTarget k) 2)

/-- RETFIE (R226). -/
def execRetfie (s : State) : Result := interruptReturn s

/-- RETLW: W takes the literal; no flag (R227). -/
def execRetlw (k : Byte) (s : State) : Result := returnWith s fun s' => { s' with w := k }

/-- RETURN (R228). -/
def execReturn (s : State) : Result := returnWith s fun s' => s'

end Sys2Proof.Machine
end

