-- ==== Sys2Proof/Machine/Inherent.lean ====
section
/-! DEFINITION. The inherent operations (`46_inherent.md` R240 to R245). -/

namespace Sys2Proof.Machine

/-- CLRWDT: the Watchdog is cleared, nTO = 1, nPD = 1 (R240). -/
def execClrwdt (s : State) : Result := .next ({ s.wdtClear with nTO := true, nPD := true }.continueAt (s.pc + 1) 1)

/-- NOP (R241). -/
def execNop (s : State) : Result := .next (s.continueAt (s.pc + 1) 1)

/-- OPTION: OPTION_REG takes W, without BSR (R242). -/
def execOption (s : State) : Result := .next (s.store .optionReg s.w false)

/-- RESET: a device reset that clears nRI (R243, R351); one cycle (R361). -/
def execReset (s : State) : Result := .next (deviceReset .resetInstruction { s with cycles := s.cycles + 1 })

/-- SLEEP: a NOP when an enabled interrupt flag is pending, else the processor sleeps (R244, R312). -/
def execSleep (s : State) : Result :=
  .next ((if s.irqPending then s else s.enterSleep).continueAt (s.pc + 1) 1)

/-- TRIS: TRISA, TRISB or TRISC takes W under its mask, without BSR (R245, R36). A term with another `f` is not well
formed and no word decodes to it (R116; log 23). -/
def execTris (f : BitVec 3) (s : State) : Result :=
  if f = 5#3 then .next (s.store .trisa s.w false)
  else if f = 6#3 then .next (s.store .trisb s.w false)
  else if f = 7#3 then .next (s.store .trisc s.w false)
  else .next (s.continueAt (s.pc + 1) 1)

end Sys2Proof.Machine
end

