-- ==== Sys2Proof/Machine/Literal.lean ====
section
/-! DEFINITION. The literal operations (`44_literal.md` R200 to R207). -/

namespace Sys2Proof.Machine

/-- ADDLW: `W + k`; C, DC, Z (R200). -/
def execAddlw (k : Byte) (s : State) : Result := literalOp s (add8 s.w k false)

/-- ANDLW: Z (R201). -/
def execAndlw (k : Byte) (s : State) : Result := literalOp s (aluZ (s.w &&& k))

/-- IORLW: Z (R202). -/
def execIorlw (k : Byte) (s : State) : Result := literalOp s (aluZ (s.w ||| k))

/-- MOVLB: BSR takes the 5-bit literal (R203). -/
def execMovlb (k : BitVec 5) (s : State) : Result := .next ({ s with bsr := k }.continueAt (s.pc + 1) 1)

/-- MOVLP: PCLATH takes the 7-bit literal (R204, C1). -/
def execMovlp (k : BitVec 7) (s : State) : Result := .next ({ s with pclath := k }.continueAt (s.pc + 1) 1)

/-- MOVLW: W takes the literal; no flag (R205, C11). -/
def execMovlw (k : Byte) (s : State) : Result := literalOp s (aluPlain k)

/-- SUBLW: `k - W`; C, DC, Z (R206). -/
def execSublw (k : Byte) (s : State) : Result := literalOp s (sub8 k s.w)

/-- XORLW: Z (R207). -/
def execXorlw (k : Byte) (s : State) : Result := literalOp s (aluZ (s.w ^^^ k))

end Sys2Proof.Machine
end

