-- ==== Sys2Proof/Machine/Dispatch.lean ====
section
/-! DEFINITION. One arm per instruction, each a call of its meaning. -/

namespace Sys2Proof.Machine

def exec (i : Instr) (s : State) : Host.Outcome State Fault Refusal :=
  match i with
  | .addwf f d => Sys2Proof.Machine.execAddwf f d s
  | .addwfc f d => Sys2Proof.Machine.execAddwfc f d s
  | .andwf f d => Sys2Proof.Machine.execAndwf f d s
  | .asrf f d => Sys2Proof.Machine.execAsrf f d s
  | .lslf f d => Sys2Proof.Machine.execLslf f d s
  | .lsrf f d => Sys2Proof.Machine.execLsrf f d s
  | .clrf f => Sys2Proof.Machine.execClrf f s
  | .clrw => Sys2Proof.Machine.execClrw s
  | .comf f d => Sys2Proof.Machine.execComf f d s
  | .decf f d => Sys2Proof.Machine.execDecf f d s
  | .incf f d => Sys2Proof.Machine.execIncf f d s
  | .iorwf f d => Sys2Proof.Machine.execIorwf f d s
  | .movf f d => Sys2Proof.Machine.execMovf f d s
  | .movwf f => Sys2Proof.Machine.execMovwf f s
  | .rlf f d => Sys2Proof.Machine.execRlf f d s
  | .rrf f d => Sys2Proof.Machine.execRrf f d s
  | .subwf f d => Sys2Proof.Machine.execSubwf f d s
  | .subwfb f d => Sys2Proof.Machine.execSubwfb f d s
  | .swapf f d => Sys2Proof.Machine.execSwapf f d s
  | .xorwf f d => Sys2Proof.Machine.execXorwf f d s
  | .decfsz f d => Sys2Proof.Machine.execDecfsz f d s
  | .incfsz f d => Sys2Proof.Machine.execIncfsz f d s
  | .bcf f b => Sys2Proof.Machine.execBcf f b s
  | .bsf f b => Sys2Proof.Machine.execBsf f b s
  | .btfsc f b => Sys2Proof.Machine.execBtfsc f b s
  | .btfss f b => Sys2Proof.Machine.execBtfss f b s
  | .addlw k => Sys2Proof.Machine.execAddlw k s
  | .andlw k => Sys2Proof.Machine.execAndlw k s
  | .iorlw k => Sys2Proof.Machine.execIorlw k s
  | .movlb k => Sys2Proof.Machine.execMovlb k s
  | .movlp k => Sys2Proof.Machine.execMovlp k s
  | .movlw k => Sys2Proof.Machine.execMovlw k s
  | .sublw k => Sys2Proof.Machine.execSublw k s
  | .xorlw k => Sys2Proof.Machine.execXorlw k s
  | .bra k => Sys2Proof.Machine.execBra k s
  | .brw => Sys2Proof.Machine.execBrw s
  | .call k => Sys2Proof.Machine.execCall k s
  | .callw => Sys2Proof.Machine.execCallw s
  | .goto k => Sys2Proof.Machine.execGoto k s
  | .retfie => Sys2Proof.Machine.execRetfie s
  | .retlw k => Sys2Proof.Machine.execRetlw k s
  | .ret => Sys2Proof.Machine.execReturn s
  | .clrwdt => Sys2Proof.Machine.execClrwdt s
  | .nop => Sys2Proof.Machine.execNop s
  | .optionW => Sys2Proof.Machine.execOption s
  | .reset => Sys2Proof.Machine.execReset s
  | .sleep => Sys2Proof.Machine.execSleep s
  | .tris f => Sys2Proof.Machine.execTris f s
  | .addfsr n k => Sys2Proof.Machine.execAddfsr n k s
  | .moviwMod n mm => Sys2Proof.Machine.execMoviwMod n mm s
  | .moviwIdx n k => Sys2Proof.Machine.execMoviwIdx n k s
  | .movwiMod n mm => Sys2Proof.Machine.execMovwiMod n mm s
  | .movwiIdx n k => Sys2Proof.Machine.execMovwiIdx n k s

end Sys2Proof.Machine
end

