-- ==== Sys2Proof/Machine/Cpu.lean ====
section
/-! DEFINITION. One step of the CPU (`00_scope.md` R11): wait in Sleep, interrupt entry, or one instruction; the turns of
the other agents; and the preparation of a state so that its next step runs a given word. -/

namespace Sys2Proof.Machine

/-- Fetch the word at the PC, decode it, perform it (R11 (4), R117); a word that is no instruction is refused (R114). -/
def runInstruction (s : State) : Result :=
  match decode (s.progRead s.pc) with
  | .ok i => exec i s
  | .error (.unassignedOpcode iw) => .refused (.unassignedOpcode iw)

/-- The CPU's step (R11 (2) to (4), R306). Asleep, it waits, and wakes if a flag is pending (R312). After a wake-up with
GIE = 1 one instruction comes first and then the entry (R312; log 13). Else an interrupt request is taken before the
next instruction (R303). -/
def cpuStep (s : State) : Result :=
  if s.asleep then .next s.wakeUp
  else match s.wake with
    | .settled => if s.interruptRequest then interruptEntry s else runInstruction s
    | .resumeFirst => runInstruction { s with wake := .entryDue }
    | .entryDue => interruptEntry s

/-- One turn (R11): an external reset is performed at once and comes before everything (R306); a platform event may wake
a sleeping CPU (R312). -/
def takeTurn (t : Turn) (s : State) : Result :=
  match t with
  | .cpu => cpuStep s
  | .platform e => .next (s.platformEvent e).wakeUp
  | .externalReset cause => .next (deviceReset cause.toCause s)
  | .wdtRun => .next s.wdtRun
  | .wdtTimeout => .next s.wdtTimeout

/-- The first turn of the schedule is taken; with none left the CPU moves (log 11). -/
def machineStep (s : State) : Result :=
  match s.schedule with
  | [] => cpuStep s
  | t :: rest => takeTurn t { s with schedule := rest }

/-- The state whose next step fetches and runs the word `v` (log 18): the word stands at the PC, the CPU moves next, is
awake, and has no interrupt to take first. -/
def State.readyToRun (s : State) (v : ProgWord) : State :=
  { (if s.interruptRequest then s.setGie false else s).placeAtPc v with
    schedule := [], asleep := false, wake := .settled }

end Sys2Proof.Machine
end

