-- ==== Sys2Proof/Machine/Step.lean ====
section
/-! DEFINITION. The step of the machine, and the placing of one instruction where the next step fetches. -/

namespace Sys2Proof.Machine

/-- One step: the agent whose turn it is moves (R11). -/
def step (s : State) : Host.Outcome State Fault Refusal := machineStep s

/-- `s` with the word `w` where `step` fetches its next instruction; a word has 14 bits whatever `nbits` is (R110). -/
def State.withFetchWord (s : State) (_nbits w : Nat) : State := s.readyToRun (BitVec.ofNat 14 w)

end Sys2Proof.Machine
end

