-- ==== Sys2Proof/Safety.lean ====
section
/-! DEFINITION. What a safe run keeps, and the words of the claims: what a write, a result, a reset, an interrupt entry and
a turn are, said once more in numbers and apart from the functions of the machine. -/

namespace Sys2Proof.Machine

/-! ### Safe states -/

/-- The invariant of the machine: both memories in canonical form, the bits that no write reaches at the values R36 and
R37 give them, and no wake-up in progress while asleep (R312). -/
structure Inv (s : State) : Prop where
  ram_wf : Memory.wf s.config.device s.ram = true
  prog_wf : ProgMemory.wf s.config.device s.prog = true
  /-- TRISA bit 3 reads 1, bits 7:6 read 0. -/
  trisa_fixed : s.trisa &&& 0xC8#8 = 0x08#8
  /-- TRISB bits 3:0 read 0. -/
  trisb_fixed : s.trisb &&& 0x0F#8 = 0x00#8
  /-- WDTCON bits 7:6 read 0. -/
  wdtcon_fixed : s.wdtcon &&& 0xC0#8 = 0x00#8
  asleep_settled : s.asleep = true → s.wake = .settled

/-! ### Numbers -/

/-- Bit `i` of a byte, by arithmetic. -/
def bitOf (v : Byte) (i : Nat) : Bool := decide (v.toNat / 2 ^ i % 2 = 1)

/-- GIE (R33). -/
def gieBit (s : State) : Bool := bitOf s.intcon 7

/-- A flag is pending whatever GIE says (R302): TMR0IE and TMR0IF, INTE and INTF, IOCIE and IOCIF, PEIE and the line. -/
def pendingFlags (s : State) : Bool :=
  (bitOf s.intcon 5 && bitOf s.intcon 2) || (bitOf s.intcon 4 && bitOf s.intcon 1)
    || (bitOf s.intcon 3 && bitOf s.intcon 0) || (bitOf s.intcon 6 && s.irqLine)

/-- Entry `i` of the return stack, `i` modulo 16. -/
def entryAt (s : State) (i : Nat) : PC := s.stack[i % 16]'(Nat.mod_lt _ (by decide))

/-- `t`'s stack is `s`'s with entry `i` replaced by `v`. -/
def StackSet (s t : State) (i : Nat) (v : PC) : Prop :=
  entryAt t i = v ∧ ∀ j, j % 16 ≠ i % 16 → entryAt t j = entryAt s j

/-- Reading the location is one read of a platform register, or none. -/
def platformReads : Loc → Nat
  | .platform _ => 1
  | _ => 0

/-- The location is in program memory: one more cycle (Note 2). -/
def note2Cycles : Loc → Nat
  | .prog _ => 1
  | _ => 0

/-- `PCLATH[6:0] : v` (R28). -/
def pclTarget (s : State) (v : Byte) : PC := BitVec.ofNat 15 (s.pclath.toNat * 256 + v.toNat)

/-- Whether a word has no instruction: the five ranges of R114. -/
def unassignedWord (w : Nat) : Bool :=
  decide ((0x0002 ≤ w ∧ w ≤ 0x0007) ∨ (0x000C ≤ w ∧ w ≤ 0x000F) ∨ (0x0040 ≤ w ∧ w ≤ 0x0061)
    ∨ (0x0068 ≤ w ∧ w ≤ 0x007F) ∨ (0x0104 ≤ w ∧ w ≤ 0x017F))

/-- Whether an offset of a bank is implemented general purpose RAM: the table of R74. -/
def gprOf (dev : Device) (a : Nat) : Bool :=
  match dev with
  | .pic1508 => decide (a / 128 < 3 ∧ 0x20 ≤ a % 128 ∧ a % 128 < 0x70)
  | .pic1509 => decide ((a / 128 < 6 ∧ 0x20 ≤ a % 128 ∧ a % 128 < 0x70) ∨ (0x320 ≤ a ∧ a ≤ 0x32F))

/-! ### Writes and results -/

/-- `t` is `s` after the byte `v` is written to `loc`, but for the PC (R77 with R24, R25, R26, R29, R32 to R37, R39).
`affects`: the instruction affects one of Z, DC, C (R24 c). -/
def Written (s : State) (loc : Loc) (v : Byte) (affects : Bool) (t : State) : Prop :=
  match loc with
  | .pcl | .platform _ | .prog _ | .void => t = s
  | .status => t = if affects then s else { s with z := bitOf v 2, dc := bitOf v 1, c := bitOf v 0 }
  | .fsr0l => t = { s with fsr0 := BitVec.ofNat 16 (s.fsr0.toNat / 256 * 256 + v.toNat) }
  | .fsr0h => t = { s with fsr0 := BitVec.ofNat 16 (v.toNat * 256 + s.fsr0.toNat % 256) }
  | .fsr1l => t = { s with fsr1 := BitVec.ofNat 16 (s.fsr1.toNat / 256 * 256 + v.toNat) }
  | .fsr1h => t = { s with fsr1 := BitVec.ofNat 16 (v.toNat * 256 + s.fsr1.toNat % 256) }
  | .bsr => t = { s with bsr := BitVec.ofNat 5 (v.toNat % 32) }
  | .wreg => t = { s with w := v }
  | .pclath => t = { s with pclath := BitVec.ofNat 7 (v.toNat % 128) }
  | .intcon => t = { s with intcon := BitVec.ofNat 8 (v.toNat / 2 * 2 + s.intcon.toNat % 2) }
  | .trisa => t = { s with trisa := BitVec.ofNat 8 (v.toNat % 8 + 8 + v.toNat / 16 % 4 * 16) }
  | .trisb => t = { s with trisb := BitVec.ofNat 8 (v.toNat / 16 * 16) }
  | .trisc => t = { s with trisc := v }
  | .optionReg => t = { s with optionReg := v }
  | .pcon => t = { s with pcon := { stkovf := bitOf v 7, stkunf := bitOf v 6, nRWDT := bitOf v 4, nRMCLR := bitOf v 3
                                    nRI := bitOf v 2, nPOR := bitOf v 1, nBOR := bitOf v 0 } }
  | .wdtcon => t = { s with wdtcon := BitVec.ofNat 8 (v.toNat % 64) }
  | .statusShad => t = { s with shadow := { s.shadow with status := BitVec.ofNat 3 (v.toNat % 8) } }
  | .wregShad => t = { s with shadow := { s.shadow with wreg := v } }
  | .bsrShad => t = { s with shadow := { s.shadow with bsr := BitVec.ofNat 5 (v.toNat % 32) } }
  | .pclathShad => t = { s with shadow := { s.shadow with pclath := BitVec.ofNat 7 (v.toNat % 128) } }
  | .fsr0lShad => t = { s with shadow := { s.shadow with fsr0l := v } }
  | .fsr0hShad => t = { s with shadow := { s.shadow with fsr0h := v } }
  | .fsr1lShad => t = { s with shadow := { s.shadow with fsr1l := v } }
  | .fsr1hShad => t = { s with shadow := { s.shadow with fsr1h := v } }
  | .stkptr => t = { s with stkptr := BitVec.ofNat 5 (v.toNat % 32) }
  | .tosl => t = { s with stack := t.stack }
      ∧ StackSet s t s.stkptr.toNat (BitVec.ofNat 15 ((entryAt s s.stkptr.toNat).toNat / 256 * 256 + v.toNat))
  | .tosh => t = { s with stack := t.stack }
      ∧ StackSet s t s.stkptr.toNat (BitVec.ofNat 15 (v.toNat % 128 * 256 + (entryAt s s.stkptr.toNat).toNat % 256))
  | .ram a => t = { s with ram := t.ram } ∧ t.ramByte a = v ∧ ∀ b, b ≠ a → t.ramByte b = s.ramByte b

/-- `t` is `s` after `FileWrite` of `v` at `loc` and the step of the PC: a write to PCL jumps in two cycles (R28, Note 1),
any other goes on at `pc + 1`. Nothing else changes. -/
def Stored (s : State) (loc : Loc) (v : Byte) (affects : Bool) (t : State) : Prop :=
  ∃ u, Written s loc v affects u ∧
    t = { u with pc := if loc = .pcl then pclTarget s v else s.pc + 1
                 cycles := s.cycles + (if loc = .pcl then 2 else 1 + note2Cycles loc) }

/-- `s` with the flags Z, DC, C. -/
def withFlags (s : State) (c dc z : Bool) : State := { s with c := c, dc := dc, z := z }

/-- `s` after the one read of `loc`: only a platform register counts it. -/
def withRead (s : State) (loc : Loc) : State := { s with sfrReads := s.sfrReads + platformReads loc }

/-- `t` is `s` after an instruction that reads register f at `loc`, sets the flags to `c`, `dc`, `z` and delivers `r` to its
destination (R140 b). Nothing else changes. -/
def FileResult (s : State) (d : Dest) (loc : Loc) (r : Byte) (c dc z affects : Bool) (t : State) : Prop :=
  match d with
  | .w => t = { withFlags (withRead s loc) c dc z with w := r, pc := s.pc + 1, cycles := s.cycles + 1 + note2Cycles loc }
  | .f => Stored (withFlags (withRead s loc) c dc z) loc r affects t

/-- `t` is `s` after a skip instruction that wrote `u`'s registers: `pc + 2` and one more cycle if `skip` (R170). -/
def skipped (s u : State) (loc : Loc) (skip : Bool) : State :=
  { u with pc := if skip then s.pc + 2 else s.pc + 1
           cycles := s.cycles + (if skip then 2 else 1) + note2Cycles loc }

/-- `s` after a literal instruction with result `r` in W. -/
def literalResult (s : State) (r : Byte) (c dc z : Bool) : State :=
  { withFlags s c dc z with w := r, pc := s.pc + 1, cycles := s.cycles + 1 }

/-! ### Resets, the stack and interrupts -/

/-- What every reset that keeps W, the low bytes of the FSRs, Z, DC, C, RAM, the stack entries and the shadow registers
leaves (R351), but for nTO, nPD and PCON. -/
def resetKeeping (s : State) : State :=
  { s with
    pc := 0x0000#15, bsr := 0#5, pclath := 0#7, intcon := 0x00#8, stkptr := 0x1F#5
    fsr0 := BitVec.ofNat 16 (s.fsr0.toNat % 256), fsr1 := BitVec.ofNat 16 (s.fsr1.toNat % 256)
    optionReg := 0xFF#8, trisa := 0x3F#8, trisb := 0xF0#8, trisc := 0xFF#8, wdtcon := 0x16#8
    wdtRunning := false, asleep := false, wake := .settled }

/-- What a push on a full stack comes to (R32, R313). -/
def overflowOutcome (s : State) : Result :=
  if s.config.stvren then .next { resetKeeping s with pcon := { s.pcon with stkovf := true } } else .refused .stackWrap

/-- What a pop of an empty stack comes to (R32, R313). -/
def underflowOutcome (s : State) : Result :=
  if s.config.stvren then .next { resetKeeping s with pcon := { s.pcon with stkunf := true } } else .refused .stackWrap

/-- The context of `s` as the shadow registers hold it (R303). -/
def savedContext (s : State) : Shadow :=
  { status := BitVec.ofNat 3 (s.z.toNat * 4 + s.dc.toNat * 2 + s.c.toNat)
    wreg := s.w, bsr := s.bsr, pclath := s.pclath
    fsr0l := BitVec.ofNat 8 (s.fsr0.toNat % 256), fsr0h := BitVec.ofNat 8 (s.fsr0.toNat / 256)
    fsr1l := BitVec.ofNat 8 (s.fsr1.toNat % 256), fsr1h := BitVec.ofNat 8 (s.fsr1.toNat / 256) }

/-- `t` is `s` after interrupt entry with a free stack entry (R303): nothing else changes. -/
def EntersInterrupt (s t : State) : Prop :=
  t = { s with intcon := BitVec.ofNat 8 (s.intcon.toNat % 128), stkptr := s.stkptr + 1, stack := t.stack
               shadow := savedContext s, pc := 0x0004#15, wake := .settled }
  ∧ StackSet s t (s.stkptr.toNat + 1) s.pc

/-! ### The Watchdog -/

/-- Whether the Watchdog is enabled (R311): by WDT_MODE, SWDTEN (WDTCON bit 0) and Sleep. -/
def watchdogEnabled (s : State) : Bool :=
  match s.config.wdtMode with
  | .disabled => false
  | .software => bitOf s.wdtcon 0
  | .awakeOnly => !s.asleep
  | .always => true

/-! ### Turns -/

/-- It is the turn of `a` in `s`, and `s'` is `s` with that turn taken off the schedule; an empty schedule is the CPU's. -/
def TurnOf (s : State) (a : Turn) (s' : State) : Prop :=
  (s.schedule = [] ∧ a = .cpu ∧ s' = s) ∨ ∃ rest, s.schedule = a :: rest ∧ s' = { s with schedule := rest }

/-- In `s` the CPU, as `s'`, fetches: it is its turn, it is awake, and no interrupt entry comes first (R11, R312). -/
def Fetches (s s' : State) : Prop :=
  TurnOf s .cpu s' ∧ s'.asleep = false ∧
    (s'.wake = .resumeFirst ∨ (s'.wake = .settled ∧ (gieBit s' && pendingFlags s') = false))

/-- In `s` the CPU, as `s'`, runs the instruction `i`. -/
def Runs (s s' : State) (i : Instr) : Prop := Fetches s s' ∧ decode (s'.progRead s'.pc) = .ok i

/-- In `s` the CPU, as `s'`, enters the interrupt (R303, R312): the entry after a wake-up is due, or a request is taken. -/
def EntersNow (s s' : State) : Prop :=
  TurnOf s .cpu s' ∧ s'.asleep = false ∧
    (s'.wake = .entryDue ∨ (s'.wake = .settled ∧ (gieBit s' && pendingFlags s') = true))

/-- An outcome with the cycle counter left out (R360). -/
def forgetCycles : Result → Result
  | .next t => .next { t with cycles := 0 }
  | .fault x => .fault x
  | .refused r => .refused r

/-! ### Groups of instructions -/

/-- The 25 instructions with a file operand. -/
def fileInstructions (f : FileAddr) (d : Dest) (b : BitVec 3) : List Instr := [
  .addwf f d, .addwfc f d, .andwf f d, .asrf f d, .lslf f d, .lsrf f d, .clrf f, .comf f d, .decf f d, .incf f d,
  .iorwf f d, .movf f d, .movwf f, .rlf f d, .rrf f d, .subwf f d, .subwfb f d, .swapf f d, .xorwf f d,
  .decfsz f d, .incfsz f d, .bcf f b, .bsf f b, .btfsc f b, .btfss f b ]

/-- The instructions that push a return address (R223, R224). -/
def pushes : Instr → Bool
  | .call _ | .callw => true
  | _ => false

/-- The instructions that pop one (R226 to R228). -/
def pops : Instr → Bool
  | .ret | .retlw _ | .retfie => true
  | _ => false

/-- The file operand that is redirected through FSR`n` (R78). -/
def indirectOperand : FsrSel → FileAddr
  | .fsr0 => 0x00#7
  | .fsr1 => 0x01#7

/-- In `s` the instruction `i` makes its data access through FSR`n`, at the address `ea` of the FSR space: a file operand
f = 0 or 1 (R78), or MOVIW or MOVWI (R260 e). -/
def AccessesThrough (s : State) (i : Instr) (n : FsrSel) (ea : FsrAddr) : Prop :=
  (∃ d b, i ∈ fileInstructions (indirectOperand n) d b ∧ ea = s.fsr n)
  ∨ (∃ mm, (i = .moviwMod n mm ∨ i = .movwiMod n mm) ∧ ea = match mm with
      | .preInc => s.fsr n + 1
      | .preDec => s.fsr n - 1
      | .postInc | .postDec => s.fsr n)
  ∨ ∃ k, (i = .moviwIdx n k ∨ i = .movwiIdx n k) ∧ ea = BitVec.ofInt 16 ((s.fsr n).toNat + k.toInt)

/-- The instructions with a file operand whose result, with d = 0, goes to W. -/
def resultToW (f : FileAddr) : List Instr := [
  .addwf f .w, .addwfc f .w, .andwf f .w, .asrf f .w, .lslf f .w, .lsrf f .w, .comf f .w, .decf f .w, .incf f .w,
  .iorwf f .w, .movf f .w, .rlf f .w, .rrf f .w, .subwf f .w, .subwfb f .w, .swapf f .w, .xorwf f .w,
  .decfsz f .w, .incfsz f .w ]

/-- The instructions that store to no file operand and through no pointer (R91): all of memory is their frame. -/
def withoutFileOperand : Instr → Bool
  | .clrw | .addlw _ | .andlw _ | .iorlw _ | .movlb _ | .movlp _ | .movlw _ | .sublw _ | .xorlw _ | .bra _ | .brw
  | .call _ | .callw | .goto _ | .retfie | .retlw _ | .ret | .clrwdt | .nop | .optionW | .reset | .sleep | .tris _
  | .addfsr _ _ | .moviwMod _ _ | .moviwIdx _ _ => true
  | _ => false

end Sys2Proof.Machine
end

