-- ==== Sys2Proof/Certificates/Slice0/Obligations.lean ====
section
/-! DEFINITION. The statements for the provers. Each docstring names the rules of `spec/` that the statement formalises;
results and flags are written in numbers (R280, R282), and every next state is written out whole, so that each statement is
also the frame of its instructions: what it does not name is unchanged. -/

open Sys2Proof Sys2Proof.Machine

/-! ### Encoding -/

/-- R115, R116 whole, and one word of each family read bit by bit from R113: the decoder reads each as its instruction. -/
def Obligations.SampleWordsDecode : Prop :=
  -- CLRW has two don't-care bits; the encoder writes them 0 (R115)
  (decode 0x0100#14 = .ok .clrw ∧ decode 0x0101#14 = .ok .clrw ∧ decode 0x0102#14 = .ok .clrw
    ∧ decode 0x0103#14 = .ok .clrw ∧ encode .clrw = 0x0100#14)
  -- TRIS and its neighbours (R116)
  ∧ (decode 0x0062#14 = .ok .optionW ∧ decode 0x0063#14 = .ok .sleep ∧ decode 0x0064#14 = .ok .clrwdt
    ∧ decode 0x0065#14 = .ok (.tris 5#3) ∧ decode 0x0066#14 = .ok (.tris 6#3) ∧ decode 0x0067#14 = .ok (.tris 7#3)
    ∧ decode 0x0060#14 = .error (.unassignedOpcode 0x0060#14) ∧ decode 0x0061#14 = .error (.unassignedOpcode 0x0061#14))
  -- one word of each family
  ∧ decode 0b00011110100000#14 = .ok (.addwf 0x20#7 .f)
  ∧ decode 0b00101100100000#14 = .ok (.decfsz 0x20#7 .w)
  ∧ decode 0b01001110100000#14 = .ok (.bcf 0x20#7 7#3)
  ∧ decode 0b01111110100000#14 = .ok (.btfss 0x20#7 7#3)
  ∧ decode 0b11000001011010#14 = .ok (.movlw 0x5A#8)
  ∧ decode 0b10000100100011#14 = .ok (.call 0x123#11)
  ∧ decode 0b11001111111110#14 = .ok (.bra 0x1FE#9)
  ∧ decode 0b11000101000001#14 = .ok (.addfsr .fsr1 1#6)
  ∧ decode 0b00000000010110#14 = .ok (.moviwMod .fsr1 .postInc)
  ∧ decode 0b11111110111111#14 = .ok (.movwiIdx .fsr0 0x3F#6)

/-- R112 and R113 for all instructions: decoding the word of a well-formed instruction gives the instruction back. -/
def Obligations.DecodeInvertsEncode : Prop :=
  ∀ i : Instr, i.wellFormed = true → decode (encode i) = .ok i

/-- R112, R115: what a word decodes to is well formed, and encodes back to the word, but for the don't-care bits of CLRW. -/
def Obligations.DecodedWordsEncodeBack : Prop :=
  ∀ (w : ProgWord) (i : Instr), decode w = .ok i →
    i.wellFormed = true ∧ (encode i = w ∨ (i = .clrw ∧ 0x0100 ≤ w.toNat ∧ w.toNat ≤ 0x0103))

/-- R114: exactly the 192 words of its five ranges have no instruction; running one is refused by name, with the word. -/
def Obligations.UnassignedWordsAreRefused : Prop :=
  (∀ w : ProgWord, decode w = .error (.unassignedOpcode w) ↔ unassignedWord w.toNat = true)
  ∧ ((List.range 16384).filter unassignedWord).length = 192
  ∧ ∀ s s' : State, TurnOf s .cpu s' → s'.asleep = false → s'.wake = .settled → (gieBit s' && pendingFlags s') = false →
      unassignedWord (s'.progRead s'.pc).toNat = true → step s = .refused (.unassignedOpcode (s'.progRead s'.pc))

/-- R113, R117: the table has 53 rows, and no word is accepted by two of them. -/
def Obligations.OpcodeRowsAreDisjoint : Prop :=
  opTable.length = 53 ∧
  opTable.Pairwise fun a b => ∀ w : ProgWord, ¬ (a.accepts w = true ∧ b.accepts w = true)

/-! ### Byte-oriented instructions -/

/-- R141, R142. -/
def Obligations.AddwfAndAddwfcAdd : Prop :=
  (∀ f d, decode (0b000111#6 ++ destBit d ++ f) = .ok (.addwf f d)
    ∧ decode (0b111101#6 ++ destBit d ++ f) = .ok (.addwfc f d))
  ∧ ∀ (s : State) (f : FileAddr) (d : Dest) (loc : Loc), locateFile s f = .ok loc →
    let w := s.w.toNat
    let a := (readLoc s loc).toNat
    let cin := s.c.toNat
    (∃ t, exec (.addwf f d) s = .next t ∧
      FileResult s d loc (BitVec.ofNat 8 (w + a)) (decide (256 ≤ w + a)) (decide (16 ≤ w % 16 + a % 16))
        (decide ((w + a) % 256 = 0)) true t)
    ∧ (∃ t, exec (.addwfc f d) s = .next t ∧
      FileResult s d loc (BitVec.ofNat 8 (w + a + cin)) (decide (256 ≤ w + a + cin))
        (decide (16 ≤ w % 16 + a % 16 + cin)) (decide ((w + a + cin) % 256 = 0)) true t)

/-- R157, R158: f minus W; C and DC say "no borrow". -/
def Obligations.SubwfAndSubwfbSubtract : Prop :=
  (∀ f d, decode (0b000010#6 ++ destBit d ++ f) = .ok (.subwf f d)
    ∧ decode (0b111011#6 ++ destBit d ++ f) = .ok (.subwfb f d))
  ∧ ∀ (s : State) (f : FileAddr) (d : Dest) (loc : Loc), locateFile s f = .ok loc →
    let w := s.w.toNat
    let a := (readLoc s loc).toNat
    let bin := 1 - s.c.toNat
    (∃ t, exec (.subwf f d) s = .next t ∧
      FileResult s d loc (BitVec.ofInt 8 ((a : Int) - w)) (decide (w ≤ a)) (decide (w % 16 ≤ a % 16))
        (decide (a = w)) true t)
    ∧ (∃ t, exec (.subwfb f d) s = .next t ∧
      FileResult s d loc (BitVec.ofInt 8 ((a : Int) - w - bin)) (decide (w + bin ≤ a))
        (decide (w % 16 + bin ≤ a % 16)) (decide (((a : Int) - w - bin) % 256 = 0)) true t)

/-- R143, R152, R160, R149: bit by bit; Z alone. -/
def Obligations.LogicOnFilesSetsZ : Prop :=
  (∀ f d, decode (0b000101#6 ++ destBit d ++ f) = .ok (.andwf f d)
    ∧ decode (0b000100#6 ++ destBit d ++ f) = .ok (.iorwf f d)
    ∧ decode (0b000110#6 ++ destBit d ++ f) = .ok (.xorwf f d)
    ∧ decode (0b001001#6 ++ destBit d ++ f) = .ok (.comf f d))
  ∧ ∀ (s : State) (f : FileAddr) (d : Dest) (loc : Loc), locateFile s f = .ok loc →
    let a := readLoc s loc
    let gives (i : Instr) (op : Bool → Bool → Bool) : Prop :=
      ∃ (t : State) (r : Byte), (∀ k : Fin 8, bitOf r k = op (bitOf s.w k) (bitOf a k)) ∧ exec i s = .next t ∧
        FileResult s d loc r s.c s.dc (decide (r.toNat = 0)) true t
    gives (.andwf f d) (fun x y => x && y) ∧ gives (.iorwf f d) (fun x y => x || y)
      ∧ gives (.xorwf f d) (fun x y => x != y) ∧ gives (.comf f d) (fun _ y => !y)

/-- R144, R145, R146: one place; C takes the bit that leaves, Z follows the result, DC stays. -/
def Obligations.ShiftsMoveOnePlace : Prop :=
  (∀ f d, decode (0b110111#6 ++ destBit d ++ f) = .ok (.asrf f d)
    ∧ decode (0b110101#6 ++ destBit d ++ f) = .ok (.lslf f d)
    ∧ decode (0b110110#6 ++ destBit d ++ f) = .ok (.lsrf f d))
  ∧ ∀ (s : State) (f : FileAddr) (d : Dest) (loc : Loc), locateFile s f = .ok loc →
    let a := (readLoc s loc).toNat
    (∃ t, exec (.asrf f d) s = .next t ∧
      FileResult s d loc (BitVec.ofNat 8 (a / 2 + a / 128 * 128)) (decide (a % 2 = 1)) s.dc (decide (a < 2)) true t)
    ∧ (∃ t, exec (.lslf f d) s = .next t ∧
      FileResult s d loc (BitVec.ofNat 8 (a * 2)) (decide (128 ≤ a)) s.dc (decide (a % 128 = 0)) true t)
    ∧ (∃ t, exec (.lsrf f d) s = .next t ∧
      FileResult s d loc (BitVec.ofNat 8 (a / 2)) (decide (a % 2 = 1)) s.dc (decide (a < 2)) true t)

/-- R155, R156: a rotation of the nine bits C : f; C alone. -/
def Obligations.RotatesGoThroughCarry : Prop :=
  (∀ f d, decode (0b001101#6 ++ destBit d ++ f) = .ok (.rlf f d)
    ∧ decode (0b001100#6 ++ destBit d ++ f) = .ok (.rrf f d))
  ∧ ∀ (s : State) (f : FileAddr) (d : Dest) (loc : Loc), locateFile s f = .ok loc →
    let a := (readLoc s loc).toNat
    (∃ t, exec (.rlf f d) s = .next t ∧
      FileResult s d loc (BitVec.ofNat 8 (a * 2 + s.c.toNat)) (decide (128 ≤ a)) s.dc s.z true t)
    ∧ (∃ t, exec (.rrf f d) s = .next t ∧
      FileResult s d loc (BitVec.ofNat 8 (a / 2 + s.c.toNat * 128)) (decide (a % 2 = 1)) s.dc s.z true t)

/-- R150, R151: modulo 256; Z alone, C and DC stay even on the wrap. -/
def Obligations.DecfAndIncfCount : Prop :=
  (∀ f d, decode (0b000011#6 ++ destBit d ++ f) = .ok (.decf f d)
    ∧ decode (0b001010#6 ++ destBit d ++ f) = .ok (.incf f d))
  ∧ ∀ (s : State) (f : FileAddr) (d : Dest) (loc : Loc), locateFile s f = .ok loc →
    let a := (readLoc s loc).toNat
    (∃ t, exec (.decf f d) s = .next t ∧
      FileResult s d loc (BitVec.ofNat 8 (a + 255)) s.c s.dc (decide (a = 1)) true t)
    ∧ (∃ t, exec (.incf f d) s = .next t ∧
      FileResult s d loc (BitVec.ofNat 8 (a + 1)) s.c s.dc (decide (a = 255)) true t)

/-- R153, R159: MOVF sets Z from the byte moved; SWAPF sets no flag, so that a swap of STATUS is written to Z, DC, C. -/
def Obligations.MovfAndSwapfMove : Prop :=
  (∀ f d, decode (0b001000#6 ++ destBit d ++ f) = .ok (.movf f d)
    ∧ decode (0b001110#6 ++ destBit d ++ f) = .ok (.swapf f d))
  ∧ ∀ (s : State) (f : FileAddr) (d : Dest) (loc : Loc), locateFile s f = .ok loc →
    let a := (readLoc s loc).toNat
    (∃ t, exec (.movf f d) s = .next t ∧
      FileResult s d loc (readLoc s loc) s.c s.dc (decide (a = 0)) true t)
    ∧ (∃ t, exec (.swapf f d) s = .next t ∧
      FileResult s d loc (BitVec.ofNat 8 (a % 16 * 16 + a / 16)) s.c s.dc s.z false t)

/-- R147, R154: the register takes 0x00 or W; CLRF sets Z, MOVWF sets no flag. That neither reads the register is R82's for
MOVWF; for CLRF on a platform register R82 and U25 leave it open, and it is the model's choice (log 25, DESIGN CHOICE). -/
def Obligations.ClrfAndMovwfStore : Prop :=
  (∀ f, decode (0b0000011#7 ++ f) = .ok (.clrf f) ∧ decode (0b0000001#7 ++ f) = .ok (.movwf f))
  ∧ ∀ (s : State) (f : FileAddr) (loc : Loc), locateFile s f = .ok loc →
    (∃ t, exec (.clrf f) s = .next t ∧ Stored (withFlags s s.c s.dc true) loc 0x00#8 true t)
    ∧ (∃ t, exec (.movwf f) s = .next t ∧ Stored s loc s.w false t)

/-! ### Skips and bits -/

/-- R171, R172 (with R170): the result is delivered and a zero result skips; no flag; a destination PCL is refused. -/
def Obligations.DecfszAndIncfszCountAndSkip : Prop :=
  (∀ f d, decode (0b001011#6 ++ destBit d ++ f) = .ok (.decfsz f d)
    ∧ decode (0b001111#6 ++ destBit d ++ f) = .ok (.incfsz f d))
  ∧ ∀ (s : State) (f : FileAddr) (loc : Loc), locateFile s f = .ok loc →
    let a := (readLoc s loc).toNat
    let counts (i : Dest → Instr) (r : Byte) (zero : Bool) : Prop :=
      exec (i .w) s = .next (skipped s { withRead s loc with w := r } loc zero)
      ∧ (loc ≠ .pcl → ∃ u, Written (withRead s loc) loc r false u ∧ exec (i .f) s = .next (skipped s u loc zero))
      ∧ (loc = .pcl → exec (i .f) s = .refused .skipOnPCL)
    counts (.decfsz f) (BitVec.ofNat 8 (a + 255)) (decide (a = 1))
      ∧ counts (.incfsz f) (BitVec.ofNat 8 (a + 1)) (decide (a = 255))

/-- R181, R182 (with R180): the whole byte is read and written back with one bit changed; no flag of the instruction's own. -/
def Obligations.BcfAndBsfChangeOneBit : Prop :=
  (∀ f b, decode (0b0100#4 ++ b ++ f) = .ok (.bcf f b) ∧ decode (0b0101#4 ++ b ++ f) = .ok (.bsf f b))
  ∧ ∀ (s : State) (f : FileAddr) (b : BitVec 3) (loc : Loc), locateFile s f = .ok loc →
    let a := readLoc s loc
    let changes (i : Instr) (v : Bool) : Prop :=
      ∃ (t : State) (r : Byte), (∀ k : Fin 8, bitOf r k = if k.val = b.toNat then v else bitOf a k) ∧ exec i s = .next t ∧
        FileResult s .f loc r s.c s.dc s.z false t
    changes (.bcf f b) false ∧ changes (.bsf f b) true

/-- R190, R191 (with R170): one read, no write, no flag; the PC and the cycles say whether the skip is taken. -/
def Obligations.BtfscAndBtfssSkip : Prop :=
  (∀ f b, decode (0b0110#4 ++ b ++ f) = .ok (.btfsc f b) ∧ decode (0b0111#4 ++ b ++ f) = .ok (.btfss f b))
  ∧ ∀ (s : State) (f : FileAddr) (b : BitVec 3) (loc : Loc), locateFile s f = .ok loc →
    exec (.btfsc f b) s = .next (skipped s (withRead s loc) loc (!(bitOf (readLoc s loc) b.toNat)))
    ∧ exec (.btfss f b) s = .next (skipped s (withRead s loc) loc (bitOf (readLoc s loc) b.toNat))

/-- R79: a file operand, MOVIW or MOVWI that reaches an INDF address through a pointer is refused. -/
def Obligations.IndirectIndfIsRefused : Prop :=
  (∀ (s : State) (d : Dest) (b : BitVec 3), s.fsr0.toNat ≤ 0x0FFF → s.fsr0.toNat % 128 ≤ 1 →
    ∀ i ∈ fileInstructions 0x00#7 d b, exec i s = .refused .indirectINDF)
  ∧ (∀ (s : State) (d : Dest) (b : BitVec 3), s.fsr1.toNat ≤ 0x0FFF → s.fsr1.toNat % 128 ≤ 1 →
    ∀ i ∈ fileInstructions 0x01#7 d b, exec i s = .refused .indirectINDF)
  ∧ (∀ (s : State) (n : FsrSel) (k : BitVec 6),
    (BitVec.ofInt 16 ((s.fsr n).toNat + k.toInt)).toNat ≤ 0x0FFF →
    (BitVec.ofInt 16 ((s.fsr n).toNat + k.toInt)).toNat % 128 ≤ 1 →
    exec (.moviwIdx n k) s = .refused .indirectINDF ∧ exec (.movwiIdx n k) s = .refused .indirectINDF)
  ∧ (∀ (s : State) (n : FsrSel) (mm : PtrMode), (pointerUsed mm (s.fsr n)).toNat ≤ 0x0FFF →
    (pointerUsed mm (s.fsr n)).toNat % 128 ≤ 1 →
    exec (.moviwMod n mm) s = .refused .indirectINDF ∧ exec (.movwiMod n mm) s = .refused .indirectINDF)

/-! ### Literals -/

/-- R200, R206: W takes the sum, or the literal minus W; C, DC, Z. -/
def Obligations.AddlwAndSublwCompute : Prop :=
  (∀ k, decode (0b111110#6 ++ k) = .ok (.addlw k) ∧ decode (0b111100#6 ++ k) = .ok (.sublw k))
  ∧ ∀ (s : State) (k : Byte),
    let w := s.w.toNat
    let l := k.toNat
    exec (.addlw k) s = .next (literalResult s (BitVec.ofNat 8 (w + l)) (decide (256 ≤ w + l))
      (decide (16 ≤ w % 16 + l % 16)) (decide ((w + l) % 256 = 0)))
    ∧ exec (.sublw k) s = .next (literalResult s (BitVec.ofInt 8 ((l : Int) - w)) (decide (w ≤ l))
      (decide (w % 16 ≤ l % 16)) (decide (w = l)))

/-- R201, R202, R207: bit by bit; Z alone. -/
def Obligations.LogicOnLiteralsSetsZ : Prop :=
  (∀ k, decode (0b111001#6 ++ k) = .ok (.andlw k) ∧ decode (0b111000#6 ++ k) = .ok (.iorlw k)
    ∧ decode (0b111010#6 ++ k) = .ok (.xorlw k))
  ∧ ∀ (s : State) (k : Byte),
    let gives (i : Instr) (op : Bool → Bool → Bool) : Prop :=
      ∃ r : Byte, (∀ j : Fin 8, bitOf r j = op (bitOf s.w j) (bitOf k j)) ∧
        exec i s = .next (literalResult s r s.c s.dc (decide (r.toNat = 0)))
    gives (.andlw k) (fun x y => x && y) ∧ gives (.iorlw k) (fun x y => x || y) ∧ gives (.xorlw k) (fun x y => x != y)

/-- R205, R148: W takes the literal without a flag; CLRW clears W and sets Z. -/
def Obligations.MovlwAndClrwLoadW : Prop :=
  (∀ k, decode (0b110000#6 ++ k) = .ok (.movlw k))
  ∧ (∀ x : BitVec 2, decode (0b000001000000#12 ++ x) = .ok .clrw)
  ∧ ∀ (s : State) (k : Byte), exec (.movlw k) s = .next (literalResult s k s.c s.dc s.z)
    ∧ exec .clrw s = .next (literalResult s 0x00#8 s.c s.dc true)

/-- R203, R204: BSR and PCLATH take their literals; nothing else changes, the PC goes to the next instruction. -/
def Obligations.MovlbAndMovlpLoad : Prop :=
  (∀ k, decode (0b000000001#9 ++ k) = .ok (.movlb k)) ∧ (∀ k, decode (0b1100011#7 ++ k) = .ok (.movlp k))
  ∧ ∀ (s : State) (k : BitVec 5) (p : BitVec 7),
    exec (.movlb k) s = .next { s with bsr := k, pc := s.pc + 1, cycles := s.cycles + 1 }
    ∧ exec (.movlp p) s = .next { s with pclath := p, pc := s.pc + 1, cycles := s.cycles + 1 }

/-! ### Control -/

/-- R221, R222: relative to `pc + 1`, modulo 2^15; the literal is signed, W is not. -/
def Obligations.BraAndBrwBranchRelative : Prop :=
  (∀ k, decode (0b11001#5 ++ k) = .ok (.bra k)) ∧ decode 0x000B#14 = .ok .brw
  ∧ ∀ (s : State) (k : BitVec 9),
    exec (.bra k) s = .next { s with pc := BitVec.ofInt 15 (s.pc.toNat + 1 + k.toInt), cycles := s.cycles + 2 }
    ∧ exec .brw s = .next { s with pc := BitVec.ofNat 15 (s.pc.toNat + 1 + s.w.toNat), cycles := s.cycles + 2 }

/-- R225: the page of PCLATH<6:3>, the word of the literal; the stack stays. -/
def Obligations.GotoJumpsInPage : Prop :=
  (∀ k, decode (0b101#3 ++ k) = .ok (.goto k))
  ∧ ∀ (s : State) (k : BitVec 11), exec (.goto k) s =
    .next { s with pc := BitVec.ofNat 15 (s.pclath.toNat / 8 * 2048 + k.toNat), cycles := s.cycles + 2 }

/-- R223, R224: `pc + 1` is pushed, and the PC goes to `PCLATH[6:3] : k`, or `PCLATH[6:0] : W`; a full stack is R32's case. -/
def Obligations.CallAndCallwPushAndJump : Prop :=
  (∀ k, decode (0b100#3 ++ k) = .ok (.call k)) ∧ decode 0x000A#14 = .ok .callw
  ∧ ∀ (s : State) (k : BitVec 11),
    let goes (i : Instr) (target : PC) : Prop :=
      (s.stkptr ≠ 0x0F#5 → ∃ t, exec i s = .next t ∧ StackSet s t (s.stkptr.toNat + 1) (s.pc + 1) ∧
        t = { s with pc := target, stkptr := s.stkptr + 1, stack := t.stack, cycles := s.cycles + 2 })
      ∧ (s.stkptr = 0x0F#5 → exec i s = overflowOutcome s)
    goes (.call k) (BitVec.ofNat 15 (s.pclath.toNat / 8 * 2048 + k.toNat)) ∧ goes .callw (pclTarget s s.w)

/-- R227, R228: the PC takes the top of the stack, which gets one entry shorter; RETLW loads W; an empty stack is R32's case. -/
def Obligations.ReturnAndRetlwPop : Prop :=
  decode 0x0008#14 = .ok .ret ∧ (∀ k, decode (0b110100#6 ++ k) = .ok (.retlw k))
  ∧ ∀ (s : State) (k : Byte),
    (s.stkptr ≠ 0x1F#5 →
      exec .ret s = .next { s with pc := entryAt s s.stkptr.toNat, stkptr := s.stkptr - 1, cycles := s.cycles + 2 }
      ∧ exec (.retlw k) s =
        .next { s with w := k, pc := entryAt s s.stkptr.toNat, stkptr := s.stkptr - 1, cycles := s.cycles + 2 })
    ∧ (s.stkptr = 0x1F#5 → exec .ret s = underflowOutcome s ∧ exec (.retlw k) s = underflowOutcome s)

/-- R226, R304: the pop, the context from the shadow registers, GIE; nTO and nPD stay; an empty stack is R32's case. -/
def Obligations.RetfieRestoresAndEnables : Prop :=
  decode 0x0009#14 = .ok .retfie
  ∧ ∀ s : State,
    (s.stkptr ≠ 0x1F#5 → exec .retfie s = .next { s with
      w := s.shadow.wreg
      z := decide (s.shadow.status.toNat / 4 % 2 = 1), dc := decide (s.shadow.status.toNat / 2 % 2 = 1)
      c := decide (s.shadow.status.toNat % 2 = 1)
      bsr := s.shadow.bsr, pclath := s.shadow.pclath
      fsr0 := BitVec.ofNat 16 (s.shadow.fsr0h.toNat * 256 + s.shadow.fsr0l.toNat)
      fsr1 := BitVec.ofNat 16 (s.shadow.fsr1h.toNat * 256 + s.shadow.fsr1l.toNat)
      intcon := BitVec.ofNat 8 (s.intcon.toNat % 128 + 128)
      pc := entryAt s s.stkptr.toNat, stkptr := s.stkptr - 1, cycles := s.cycles + 2 })
    ∧ (s.stkptr = 0x1F#5 → exec .retfie s = underflowOutcome s)

/-- R32, R313: the five instructions that push or pop come to a device reset on overflow or underflow with STVREN = 1, and
to a refusal with STVREN = 0; interrupt entry on a full stack too. -/
def Obligations.StackTroubleResetsOrRefuses : Prop :=
  (∀ (s : State) (i : Instr), s.stkptr = 0x0F#5 → (i = .callw ∨ ∃ k, i = .call k) →
    (s.config.stvren = true → ∃ t, exec i s = .next t ∧ t.pc = 0x0000#15 ∧ t.stkptr = 0x1F#5 ∧ t.pcon.stkovf = true
      ∧ t.pcon.stkunf = s.pcon.stkunf ∧ t.stack = s.stack ∧ t.w = s.w)
    ∧ (s.config.stvren = false → exec i s = .refused .stackWrap))
  ∧ (∀ (s : State) (i : Instr), s.stkptr = 0x1F#5 → (i = .ret ∨ i = .retfie ∨ ∃ k, i = .retlw k) →
    (s.config.stvren = true → ∃ t, exec i s = .next t ∧ t.pc = 0x0000#15 ∧ t.stkptr = 0x1F#5 ∧ t.pcon.stkunf = true
      ∧ t.pcon.stkovf = s.pcon.stkovf ∧ t.stack = s.stack ∧ t.w = s.w)
    ∧ (s.config.stvren = false → exec i s = .refused .stackWrap))
  ∧ ∀ s s' : State, TurnOf s .cpu s' → s'.asleep = false → s'.wake = .settled → gieBit s' = true →
      pendingFlags s' = true → s'.stkptr = 0x0F#5 → step s = overflowOutcome s'

/-! ### Inherent instructions -/

/-- R240, R241: CLRWDT restarts the Watchdog and sets nTO and nPD; NOP changes the PC alone. -/
def Obligations.ClrwdtAndNop : Prop :=
  decode 0x0064#14 = .ok .clrwdt ∧ decode 0x0000#14 = .ok .nop
  ∧ ∀ s : State,
    exec .clrwdt s =
      .next { s with wdtRunning := false, nTO := true, nPD := true, pc := s.pc + 1, cycles := s.cycles + 1 }
    ∧ exec .nop s = .next { s with pc := s.pc + 1, cycles := s.cycles + 1 }

/-- R242, R245 (with R36): OPTION_REG, or a TRIS register under its implemented bits, takes W; BSR plays no part. -/
def Obligations.OptionAndTrisLoad : Prop :=
  decode 0x0062#14 = .ok .optionW ∧ decode 0x0065#14 = .ok (.tris 5#3) ∧ decode 0x0066#14 = .ok (.tris 6#3)
  ∧ decode 0x0067#14 = .ok (.tris 7#3)
  ∧ ∀ s : State,
    exec .optionW s = .next { s with optionReg := s.w, pc := s.pc + 1, cycles := s.cycles + 1 }
    ∧ exec (.tris 5#3) s = .next { s with trisa := BitVec.ofNat 8 (s.w.toNat % 8 + 8 + s.w.toNat / 16 % 4 * 16)
                                          pc := s.pc + 1, cycles := s.cycles + 1 }
    ∧ exec (.tris 6#3) s =
      .next { s with trisb := BitVec.ofNat 8 (s.w.toNat / 16 * 16), pc := s.pc + 1, cycles := s.cycles + 1 }
    ∧ exec (.tris 7#3) s = .next { s with trisc := s.w, pc := s.pc + 1, cycles := s.cycles + 1 }

/-- R243 (with R351, R352): nRI is cleared, the registers that every reset sets are set, the rest stays. -/
def Obligations.ResetInstructionResets : Prop :=
  decode 0x0001#14 = .ok .reset
  ∧ ∀ s : State, exec .reset s =
    .next { resetKeeping s with pcon := { s.pcon with nRI := false }, cycles := s.cycles + 1 }

/-- R244: with an enabled flag pending a NOP; else the Watchdog is cleared, nTO = 1, nPD = 0, and the processor sleeps. That
a SLEEP that does sleep also cancels an interrupt entry still due from an earlier wake-up (`wake` becomes `settled`) is no
rule of the spec: it is the model's reading of R312 (log 13, DEDUCED). -/
def Obligations.SleepStopsOrActsAsNop : Prop :=
  decode 0x0063#14 = .ok .sleep
  ∧ ∀ s : State,
    (pendingFlags s = true → exec .sleep s = .next { s with pc := s.pc + 1, cycles := s.cycles + 1 })
    ∧ (pendingFlags s = false → exec .sleep s =
      .next { s with wdtRunning := false, nTO := true, nPD := false, asleep := true, wake := .settled
                     pc := s.pc + 1, cycles := s.cycles + 1 })

/-! ### Indirect moves -/

/-- R261: the whole pair modulo 2^16; no flag, no access. -/
def Obligations.AddfsrAddsToThePair : Prop :=
  (∀ n k, decode (0b1100010#7 ++ fsrBit n ++ k) = .ok (.addfsr n k))
  ∧ ∀ (s : State) (k : BitVec 6),
    exec (.addfsr .fsr0 k) s =
      .next { s with fsr0 := BitVec.ofInt 16 (s.fsr0.toNat + k.toInt), pc := s.pc + 1, cycles := s.cycles + 1 }
    ∧ exec (.addfsr .fsr1 k) s =
      .next { s with fsr1 := BitVec.ofInt 16 (s.fsr1.toNat + k.toInt), pc := s.pc + 1, cycles := s.cycles + 1 }

/-- R262: in the pre modes the updated pointer is the address, in the post modes the old one; W and Z from the byte moved. -/
def Obligations.MoviwWithUpdateLoads : Prop :=
  (∀ n : FsrSel, decode (0b00000000010#11 ++ fsrBit n ++ 0b00#2) = .ok (.moviwMod n .preInc)
    ∧ decode (0b00000000010#11 ++ fsrBit n ++ 0b01#2) = .ok (.moviwMod n .preDec)
    ∧ decode (0b00000000010#11 ++ fsrBit n ++ 0b10#2) = .ok (.moviwMod n .postInc)
    ∧ decode (0b00000000010#11 ++ fsrBit n ++ 0b11#2) = .ok (.moviwMod n .postDec))
  ∧ ∀ (s : State) (n : FsrSel) (loc : Loc),
    let loads (mm : PtrMode) (ea after : FsrAddr) (before : State) : Prop :=
      locateFsr s.config.device ea = .ok loc →
        let v := readLoc before loc
        exec (.moviwMod n mm) s = .next { withRead (s.setFsr n after) loc with
          w := v, z := decide (v.toNat = 0), pc := s.pc + 1, cycles := s.cycles + 1 + note2Cycles loc }
    loads .preInc (s.fsr n + 1) (s.fsr n + 1) (s.setFsr n (s.fsr n + 1))
      ∧ loads .preDec (s.fsr n - 1) (s.fsr n - 1) (s.setFsr n (s.fsr n - 1))
      ∧ loads .postInc (s.fsr n) (s.fsr n + 1) s ∧ loads .postDec (s.fsr n) (s.fsr n - 1) s

/-- R263: W and Z from the byte at FSRn + k; FSRn stays. -/
def Obligations.MoviwIndexedLoads : Prop :=
  (∀ n k, decode (0b1111110#7 ++ fsrBit n ++ k) = .ok (.moviwIdx n k))
  ∧ ∀ (s : State) (n : FsrSel) (k : BitVec 6) (loc : Loc),
    locateFsr s.config.device (BitVec.ofInt 16 ((s.fsr n).toNat + k.toInt)) = .ok loc →
      exec (.moviwIdx n k) s = .next { withRead s loc with
        w := readLoc s loc, z := decide ((readLoc s loc).toNat = 0)
        pc := s.pc + 1, cycles := s.cycles + 1 + note2Cycles loc }

/-- R264: as MOVIW, but W is stored; the post modes set the whole pair from the old pointer after the store (log 22). -/
def Obligations.MovwiWithUpdateStores : Prop :=
  (∀ n : FsrSel, decode (0b00000000011#11 ++ fsrBit n ++ 0b00#2) = .ok (.movwiMod n .preInc)
    ∧ decode (0b00000000011#11 ++ fsrBit n ++ 0b01#2) = .ok (.movwiMod n .preDec)
    ∧ decode (0b00000000011#11 ++ fsrBit n ++ 0b10#2) = .ok (.movwiMod n .postInc)
    ∧ decode (0b00000000011#11 ++ fsrBit n ++ 0b11#2) = .ok (.movwiMod n .postDec))
  ∧ ∀ (s : State) (n : FsrSel) (loc : Loc),
    let p := s.fsr n
    (locateFsr s.config.device (p + 1) = .ok loc →
      ∃ t, exec (.movwiMod n .preInc) s = .next t ∧ Stored (s.setFsr n (p + 1)) loc s.w false t)
    ∧ (locateFsr s.config.device (p - 1) = .ok loc →
      ∃ t, exec (.movwiMod n .preDec) s = .next t ∧ Stored (s.setFsr n (p - 1)) loc s.w false t)
    ∧ (locateFsr s.config.device p = .ok loc →
      (∃ t, exec (.movwiMod n .postInc) s = .next (t.setFsr n (p + 1)) ∧ Stored s loc s.w false t)
      ∧ ∃ t, exec (.movwiMod n .postDec) s = .next (t.setFsr n (p - 1)) ∧ Stored s loc s.w false t)

/-- R265: W is stored at FSRn + k; FSRn stays. -/
def Obligations.MovwiIndexedStores : Prop :=
  (∀ n k, decode (0b1111111#7 ++ fsrBit n ++ k) = .ok (.movwiIdx n k))
  ∧ ∀ (s : State) (n : FsrSel) (k : BitVec 6) (loc : Loc),
    locateFsr s.config.device (BitVec.ofInt 16 ((s.fsr n).toNat + k.toInt)) = .ok loc →
      ∃ t, exec (.movwiIdx n k) s = .next t ∧ Stored s loc s.w false t

/-! ### Memory and registers -/

/-- R78, R72: f = 0 and 1 are redirected through FSR0 and FSR1; any other f is the data address `BSR * 128 + f`, which
always is a location. -/
def Obligations.FileOperandsAreLocated : Prop :=
  ∀ s : State, locateFile s 0x00#7 = locateFsr s.config.device s.fsr0
    ∧ locateFile s 0x01#7 = locateFsr s.config.device s.fsr1
    ∧ ∀ f : FileAddr, 2 ≤ f.toNat →
      locateFile s f = locateData s.config.device (BitVec.ofNat 12 (s.bsr.toNat * 128 + f.toNat))
      ∧ ∃ loc, locateFile s f = .ok loc

/-- R73, R74 and the case list of R76 and R77: what every data address is. -/
def Obligations.DataAddressMap : Prop :=
  ∀ (dev : Device) (a : DataAddr),
    let off := a.toNat % 128
    let is (loc : Loc) : Prop := locateData dev a = .ok loc
    (off ≤ 1 → locateData dev a = .error .indirectINDF)
    ∧ (off = 0x02 → is .pcl) ∧ (off = 0x03 → is .status) ∧ (off = 0x04 → is .fsr0l) ∧ (off = 0x05 → is .fsr0h)
    ∧ (off = 0x06 → is .fsr1l) ∧ (off = 0x07 → is .fsr1h) ∧ (off = 0x08 → is .bsr) ∧ (off = 0x09 → is .wreg)
    ∧ (off = 0x0A → is .pclath) ∧ (off = 0x0B → is .intcon)
    ∧ (0x70 ≤ off → is (.ram off))
    ∧ (gprOf dev a.toNat = true → is (.ram a.toNat))
    ∧ (a = 0x08C#12 → is .trisa) ∧ (a = 0x08D#12 → is .trisb) ∧ (a = 0x08E#12 → is .trisc)
    ∧ (a = 0x095#12 → is .optionReg) ∧ (a = 0x096#12 → is .pcon) ∧ (a = 0x097#12 → is .wdtcon)
    ∧ (a = 0xFE4#12 → is .statusShad) ∧ (a = 0xFE5#12 → is .wregShad) ∧ (a = 0xFE6#12 → is .bsrShad)
    ∧ (a = 0xFE7#12 → is .pclathShad) ∧ (a = 0xFE8#12 → is .fsr0lShad) ∧ (a = 0xFE9#12 → is .fsr0hShad)
    ∧ (a = 0xFEA#12 → is .fsr1lShad) ∧ (a = 0xFEB#12 → is .fsr1hShad)
    ∧ (a = 0xFED#12 → is .stkptr) ∧ (a = 0xFEE#12 → is .tosl) ∧ (a = 0xFEF#12 → is .tosh)
    ∧ (0x20 ≤ off → off < 0x70 → a.toNat < 0xF00 → gprOf dev a.toNat = false → is .void)
    ∧ (0x0C ≤ off → off < 0x70 → (off < 0x20 ∨ 0xF00 ≤ a.toNat) →
      a.toNat ∉ [0x08C, 0x08D, 0x08E, 0x095, 0x096, 0x097, 0xFE4, 0xFE5, 0xFE6, 0xFE7, 0xFE8, 0xFE9, 0xFEA, 0xFEB,
        0xFED, 0xFEE, 0xFEF] → is (.platform a))

/-- R75: what every address of the FSR space is; the linear range is cut at the implemented bytes of R74. -/
def Obligations.FsrAddressMap : Prop :=
  ∀ (dev : Device) (a : FsrAddr),
    (a.toNat ≤ 0x0FFF → locateFsr dev a = locateData dev (BitVec.ofNat 12 a.toNat))
    ∧ (0x1000 ≤ a.toNat → a.toNat ≤ 0x1FFF → locateFsr dev a = .ok .void)
    ∧ (∀ i, a.toNat = 0x2000 + i → i < (match dev with | .pic1508 => 240 | .pic1509 => 496) →
      locateFsr dev a = .ok (.ram (i / 80 * 128 + 0x20 + i % 80)))
    ∧ (∀ i, a.toNat = 0x2000 + i → (match dev with | .pic1508 => 240 | .pic1509 => 496) ≤ i → a.toNat ≤ 0x7FFF →
      locateFsr dev a = .ok .void)
    ∧ (0x8000 ≤ a.toNat → locateFsr dev a = .ok (.prog (BitVec.ofNat 15 (a.toNat - 0x8000))))

/-- R73, R40: offsets 0x02 to 0x0B and 0x70 to 0x7F are the same location in every bank. -/
def Obligations.CoreAndCommonAreSharedByBanks : Prop :=
  ∀ (s : State) (f : FileAddr) (k : BitVec 5), (2 ≤ f.toNat ∧ f.toNat ≤ 0x0B) ∨ 0x70 ≤ f.toNat →
    ∃ t loc, exec (.movlb k) s = .next t ∧ t.bsr = k ∧ locateFile t f = .ok loc ∧ locateFile s f = .ok loc

/-- R76 (with R23, R28, R29, R32, R34, R71): MOVF f, 0 loads W with the number that the location reads as. -/
def Obligations.ReadsLoadTheRegister : Prop :=
  ∀ (s : State) (f : FileAddr) (loc : Loc), locateFile s f = .ok loc →
    ∃ t, exec (.movf f .w) s = .next t ∧
      t.w.toNat = match loc with
        | .pcl => (s.pc.toNat + 1) % 256
        | .status => s.nTO.toNat * 16 + s.nPD.toNat * 8 + s.z.toNat * 4 + s.dc.toNat * 2 + s.c.toNat
        | .fsr0l => s.fsr0.toNat % 256
        | .fsr0h => s.fsr0.toNat / 256
        | .fsr1l => s.fsr1.toNat % 256
        | .fsr1h => s.fsr1.toNat / 256
        | .bsr => s.bsr.toNat
        | .wreg => s.w.toNat
        | .pclath => s.pclath.toNat
        | .intcon => s.intcon.toNat
        | .trisa => s.trisa.toNat
        | .trisb => s.trisb.toNat
        | .trisc => s.trisc.toNat
        | .optionReg => s.optionReg.toNat
        | .pcon => s.pcon.stkovf.toNat * 128 + s.pcon.stkunf.toNat * 64 + s.pcon.nRWDT.toNat * 16
            + s.pcon.nRMCLR.toNat * 8 + s.pcon.nRI.toNat * 4 + s.pcon.nPOR.toNat * 2 + s.pcon.nBOR.toNat
        | .wdtcon => s.wdtcon.toNat
        | .statusShad => s.shadow.status.toNat
        | .wregShad => s.shadow.wreg.toNat
        | .bsrShad => s.shadow.bsr.toNat
        | .pclathShad => s.shadow.pclath.toNat
        | .fsr0lShad => s.shadow.fsr0l.toNat
        | .fsr0hShad => s.shadow.fsr0h.toNat
        | .fsr1lShad => s.shadow.fsr1l.toNat
        | .fsr1hShad => s.shadow.fsr1h.toNat
        | .stkptr => s.stkptr.toNat
        | .tosl => if s.config.stvren = true ∧ s.stkptr = 0x1F#5 then 0 else (entryAt s s.stkptr.toNat).toNat % 256
        | .tosh => if s.config.stvren = true ∧ s.stkptr = 0x1F#5 then 0 else (entryAt s s.stkptr.toNat).toNat / 256
        | .ram a => (s.ramByte a).toNat
        | .platform a => (Config.sfrRead s.sfrReads a).toNat
        | .prog a => (s.progRead a).toNat % 256
        | .void => 0

/-- R86: a byte of RAM stored by MOVWF is loaded by MOVF, and a store to another location of RAM in between changes
nothing of it. -/
def Obligations.StoreThenLoad : Prop :=
  ∀ (s : State) (f g : FileAddr) (k : Byte) (a b : Nat), locateFile s f = .ok (.ram a) → locateFile s g = .ok (.ram b) →
    a ≠ b → ∃ t u v x, exec (.movwf f) s = .next t ∧ exec (.movlw k) t = .next u ∧ exec (.movwf g) u = .next v ∧
      exec (.movf f .w) v = .next x ∧ x.w = s.w ∧ x.ramByte b = k

/-- R91: the instructions without a store to a file register leave every byte of RAM as it reads; so do the byte-oriented
instructions with d = 0 and the bit tests. -/
def Obligations.NonStoringFormsKeepRam : Prop :=
  ∀ (s t : State) (i : Instr) (f : FileAddr) (b : BitVec 3),
    withoutFileOperand i = true ∨ i ∈ resultToW f ∨ i = .btfsc f b ∨ i = .btfss f b → exec i s = .next t →
    ∀ a : Nat, t.ramByte a = s.ramByte a

/-! ### Steps, interrupts, Sleep, Watchdog and resets -/

/-- R11 (4), R117, R312: when the CPU moves, awake and with no interrupt to take, its step is the meaning of the decoded
instruction; right after a wake-up with GIE = 1 it is so whatever is pending, and the entry is then due (log 13). -/
def Obligations.StepRunsTheDecodedInstruction : Prop :=
  ∀ (s s' : State) (i : Instr), TurnOf s .cpu s' → s'.asleep = false → decode (s'.progRead s'.pc) = .ok i →
    (s'.wake = .settled → (gieBit s' && pendingFlags s') = false → step s = exec i s')
    ∧ (s'.wake = .resumeFirst → step s = exec i { s' with wake := .entryDue })

/-- Log 18: a word placed with `withFetchWord` is the one the next step runs; of the rest only the schedule, Sleep, a
pending interrupt's GIE and that program word change. -/
def Obligations.PlacedWordIsRunNext : Prop :=
  ∀ (s : State) (nbits w : Nat) (i : Instr), ProgMemory.wf s.config.device s.prog = true →
    decode (BitVec.ofNat 14 w) = .ok i →
    let u := s.withFetchWord nbits w
    step u = exec i u ∧ u.progRead u.pc = BitVec.ofNat 14 w
    ∧ (∀ a : PC, s.progIndex a ≠ s.progIndex s.pc → u.progRead a = s.progRead a)
    ∧ u = { s with prog := u.prog, schedule := [], asleep := false, wake := .settled
                   intcon := if gieBit s && pendingFlags s then BitVec.ofNat 8 (s.intcon.toNat % 128) else s.intcon }

/-- R303 (with R302, R306): awake, with GIE and an enabled flag pending, entry comes before the next instruction; its push
on a full stack is R32's case. -/
def Obligations.InterruptEntryComesFirst : Prop :=
  ∀ s s' : State, TurnOf s .cpu s' → s'.asleep = false → s'.wake = .settled → gieBit s' = true → pendingFlags s' = true →
    (s'.stkptr ≠ 0x0F#5 → ∃ t, step s = .next t ∧ EntersInterrupt s' t)
    ∧ (s'.stkptr = 0x0F#5 → step s = overflowOutcome s')

/-- R11 (2), R312, R38: a sleeping CPU wakes when an enabled flag is pending, with nTO and nPD as they were; with GIE = 0 it
goes on after SLEEP, with GIE = 1 that instruction comes first (the stage is the model's own field, log 13). That a CPU with
no wake event answers its own state is the model's choice for the terminal state of D16 (log 27, DESIGN CHOICE). -/
def Obligations.SleepingCpuWaitsAndWakes : Prop :=
  ∀ s s' : State, TurnOf s .cpu s' → s'.asleep = true →
    (pendingFlags s' = false → step s = .next s')
    ∧ (pendingFlags s' = true → gieBit s' = false → step s = .next { s' with asleep := false, wake := .settled })
    ∧ (pendingFlags s' = true → gieBit s' = true → step s = .next { s' with asleep := false, wake := .resumeFirst })

/-- R312: after a wake-up with GIE = 1 the instruction after SLEEP is executed, whatever it is, and leaves interrupt entry
due; the CPU's next step then is that entry, whatever GIE and the flags have become. A SLEEP that finds an enabled flag
pending acts as a NOP and leaves the entry due too. The entry is cancelled only by a device reset in that instruction, or by
a SLEEP that does sleep: these two, and the stage `entryDue` itself, are the model's reading (log 13, DEDUCED). -/
def Obligations.InstructionAfterSleepThenEntry : Prop :=
  (∀ (s s' t : State) (i : Instr), TurnOf s .cpu s' → s'.asleep = false → s'.wake = .resumeFirst →
    decode (s'.progRead s'.pc) = .ok i → step s = .next t →
    let resets := i = .reset ∨ (pushes i = true ∧ s'.stkptr = 0x0F#5) ∨ (pops i = true ∧ s'.stkptr = 0x1F#5)
    let sleeps := i = .sleep ∧ pendingFlags s' = false
    (¬ resets → ¬ sleeps → t.wake = .entryDue ∧ t.asleep = false)
    ∧ (resets → t.wake = .settled ∧ t.asleep = false ∧ t.pc = 0x0000#15 ∧ t.stkptr = 0x1F#5 ∧ t.intcon = 0x00#8)
    ∧ (sleeps → t.wake = .settled ∧ t.asleep = true))
  ∧ ∀ s s' : State, TurnOf s .cpu s' → s'.asleep = false → s'.wake = .entryDue →
    (s'.stkptr ≠ 0x0F#5 → ∃ t, step s = .next t ∧ EntersInterrupt s' t)
    ∧ (s'.stkptr = 0x0F#5 → step s = overflowOutcome s')

/-- R302, R33, R312: what the platform does to the core's interrupt inputs, and that a flag it sets can wake the CPU. -/
def Obligations.PlatformSetsFlagsAndWakes : Prop :=
  ∀ (s s' : State) (e : PlatformEvent), TurnOf s (.platform e) s' →
    ∃ u, (match e with
      | .irqLine level => u = { s' with irqLine := level }
      | .tmr0Overflow => u = { s' with intcon := u.intcon } ∧ ∀ k : Fin 8, bitOf u.intcon k = (bitOf s'.intcon k || k == 2)
      | .intEdge => u = { s' with intcon := u.intcon } ∧ ∀ k : Fin 8, bitOf u.intcon k = (bitOf s'.intcon k || k == 1)
      | .pinChange level =>
        u = { s' with intcon := u.intcon } ∧ ∀ k : Fin 8, bitOf u.intcon k = if k = 0 then level else bitOf s'.intcon k)
    ∧ step s = .next (if u.asleep && pendingFlags u
        then { u with asleep := false, wake := if gieBit u then .resumeFirst else .settled } else u)

/-- R311, R352, R37: a Watchdog time-out resets the device when awake and wakes it when asleep, and while time passes the
Watchdog's one bit is set; a disabled Watchdog does neither. That its moves come as these two turns, and that a time-out does
not ask for the bit, is the model's choice (log 14, DESIGN CHOICE). -/
def Obligations.WatchdogTimeoutResetsOrWakes : Prop :=
  (∀ s s' : State, TurnOf s .wdtTimeout s' →
    (watchdogEnabled s' = false → step s = .next s')
    ∧ (watchdogEnabled s' = true → s'.asleep = false →
      step s = .next { resetKeeping s' with nTO := false, pcon := { s'.pcon with nRWDT := false } })
    ∧ (watchdogEnabled s' = true → s'.asleep = true →
      step s = .next { s' with wdtRunning := false, nTO := false, nPD := false, asleep := false }))
  ∧ ∀ s s' : State, TurnOf s .wdtRun s' →
    (watchdogEnabled s' = false → step s = .next s')
    ∧ (watchdogEnabled s' = true → step s = .next { s' with wdtRunning := true })

/-- R352 (with R350, R351): what each external reset leaves; it is performed whatever the CPU was about to do. -/
def Obligations.ExternalResetsByCause : Prop :=
  (∀ s s' : State, TurnOf s (.externalReset .mclr) s' →
    step s = .next { resetKeeping s' with pcon := { s'.pcon with nRMCLR := false }
                                          nTO := s'.asleep || s'.nTO, nPD := !s'.asleep && s'.nPD })
  ∧ (∀ s s' : State, TurnOf s (.externalReset .powerOn) s' → ∃ t, step s = .next t ∧
    t = { resetKeeping s' with
          w := 0x00#8, fsr0 := 0#16, fsr1 := 0#16, z := false, dc := false, c := false, nTO := true, nPD := true
          pcon := { stkovf := false, stkunf := false, nRWDT := true, nRMCLR := true, nRI := true, nPOR := false
                    nBOR := t.pcon.nBOR }
          ram := [], stack := t.stack, shadow := t.shadow, powerOns := s'.powerOns + 1 })
  ∧ ∀ s s' : State, TurnOf s (.externalReset .brownOut) s' → ∃ t, step s = .next t ∧
    t = { resetKeeping s' with
          w := 0x00#8, fsr0 := 0#16, fsr1 := 0#16, z := t.z, dc := t.dc, c := t.c, nTO := true, nPD := true
          pcon := { stkovf := false, stkunf := false, nRWDT := true, nRMCLR := true, nRI := true
                    nPOR := s'.pcon.nPOR, nBOR := false }
          ram := [], stack := t.stack, shadow := t.shadow, powerOns := s'.powerOns + 1 }

/-- R45, first column: the registers of the machine right after power-on. -/
def Obligations.ResetStateValues : Prop :=
  State.reset.pc = 0x0000#15 ∧ State.reset.w = 0x00#8
  ∧ readLoc State.reset .status = 0b00011000#8
  ∧ State.reset.fsr0 = 0x0000#16 ∧ State.reset.fsr1 = 0x0000#16 ∧ State.reset.bsr = 0#5 ∧ State.reset.pclath = 0#7
  ∧ State.reset.intcon = 0x00#8 ∧ State.reset.stkptr = 0x1F#5
  ∧ (∀ k : Fin 8, k ≠ 0 → bitOf (readLoc State.reset .pcon) k = bitOf 0b00011100#8 k)
  ∧ State.reset.optionReg = 0xFF#8 ∧ State.reset.trisa = 0b00111111#8 ∧ State.reset.trisb = 0b11110000#8
  ∧ State.reset.trisc = 0b11111111#8 ∧ State.reset.wdtcon = 0b00010110#8 ∧ State.reset.wdtRunning = false
  ∧ State.reset.asleep = false

/-! ### The machine as a whole -/

/-- The invariant holds after reset. -/
def Obligations.ResetMeetsInv : Prop := Inv State.reset

/-- Every step keeps the invariant (R73, R71, R36, R37, R312). -/
def Obligations.StepKeepsInv : Prop :=
  ∀ s t : State, Inv s → step s = .next t → Inv t

/-- R89, R41, R44: no step, of the CPU or of another agent, changes program memory or the configuration. -/
def Obligations.StepKeepsProgramAndConfig : Prop :=
  ∀ s t : State, step s = .next t → t.prog = s.prog ∧ t.config = s.config

/-- R24 (b), R22: of the instructions, only CLRWDT and SLEEP change nTO and nPD; a write to STATUS does not. -/
def Obligations.OnlyClrwdtAndSleepChangeToPd : Prop :=
  ∀ (i : Instr) (s t : State), i ≠ .clrwdt → i ≠ .sleep → exec i s = .next t → t.nTO = s.nTO ∧ t.nPD = s.nPD

/-- R300, R317: the machine never stops with a fault, and refuses exactly where a rule of the spec raises a refusal: a word
without an instruction (R114); with STVREN = 0 a push on a full stack, by CALL, CALLW or interrupt entry, or a pop of an
empty one, by RETURN, RETLW or RETFIE (R32); an access through a pointer to an INDF address, at the address that the
instruction uses (R79); DECFSZ or INCFSZ with d = 1 at PCL (R28). The two refusals that R317 calls optional are not made
(log 16). -/
def Obligations.StepStopsOnlyBySpecRefusals : Prop :=
  ∀ s : State, (∀ x : Fault, step s ≠ .fault x) ∧
    ∀ r : Refusal, step s = .refused r ↔ ∃ s',
      (r = .unassignedOpcode (s'.progRead s'.pc) ∧ Fetches s s' ∧ unassignedWord (s'.progRead s'.pc).toNat = true)
      ∨ (r = .stackWrap ∧ s'.config.stvren = false ∧
          ((s'.stkptr = 0x0F#5 ∧ (EntersNow s s' ∨ ∃ i, Runs s s' i ∧ pushes i = true))
          ∨ (s'.stkptr = 0x1F#5 ∧ ∃ i, Runs s s' i ∧ pops i = true)))
      ∨ (r = .indirectINDF ∧ ∃ (i : Instr) (n : FsrSel) (ea : FsrAddr), Runs s s' i ∧ AccessesThrough s' i n ea
          ∧ ea.toNat ≤ 0x0FFF ∧ ea.toNat % 128 ≤ 1)
      ∨ (r = .skipOnPCL ∧ ∃ f : FileAddr, locateFile s' f = .ok .pcl
          ∧ (Runs s s' (.decfsz f .f) ∨ Runs s s' (.incfsz f .f)))

/-- R360: "removing the counter changes no other state": two states that differ in the cycle counter alone step alike. -/
def Obligations.CyclesAreOnlyAnObserver : Prop :=
  ∀ (s : State) (n : Nat), forgetCycles (step { s with cycles := n }) = forgetCycles (step s)

/-- R303, R304, R305: from an interrupt entry, a handler that comes to RETFIE with the stack pointer, the pushed entry and
the shadow registers as the entry left them restores the interrupted context and the PC, and sets GIE. -/
def Obligations.InterruptThenRetfieRestores : Prop :=
  ∀ s t h : State, s.schedule = [] → s.asleep = false → s.wake = .settled → gieBit s = true → pendingFlags s = true →
    s.stkptr ≠ 0x0F#5 → s.stkptr ≠ 0x1E#5 → step s = .next t → h.stkptr = t.stkptr →
    entryAt h h.stkptr.toNat = entryAt t t.stkptr.toNat → h.shadow = t.shadow →
    ∃ u, exec .retfie h = .next u ∧ u.pc = s.pc ∧ u.w = s.w ∧ u.z = s.z ∧ u.dc = s.dc ∧ u.c = s.c ∧ u.bsr = s.bsr
      ∧ u.pclath = s.pclath ∧ u.fsr0 = s.fsr0 ∧ u.fsr1 = s.fsr1 ∧ u.stkptr = s.stkptr ∧ gieBit u = true

/-- R31, R32, R286: RETURN after CALL or CALLW goes to the instruction after the call and leaves the stack pointer as it
was; fifteen entries of the stack are untouched throughout. -/
def Obligations.ReturnUndoesCall : Prop :=
  ∀ (s t h : State) (i : Instr), (i = .callw ∨ ∃ k, i = .call k) → s.stkptr ≠ 0x0F#5 → s.stkptr ≠ 0x1E#5 →
    exec i s = .next t → h.stkptr = t.stkptr → h.stack = t.stack →
    ∃ u, exec .ret h = .next u ∧ u.pc = s.pc + 1 ∧ u.stkptr = s.stkptr
      ∧ ∀ j, j % 16 ≠ (s.stkptr.toNat + 1) % 16 → entryAt u j = entryAt s j
end

