-- ==== Sys2Proof/Laws/Bits.lean ====
section
/-! SUPPORT. Bit vectors as numbers: the fields that the machine takes out and puts together, in arithmetic. -/

namespace Sys2Proof.Machine

/-- Bit `i` by arithmetic is bit `i` of the vector. -/
theorem bitOf_eq_getLsbD (v : Byte) (i : Nat) : bitOf v i = v.getLsbD i := by
  simp [bitOf, BitVec.getLsbD, Nat.testBit_eq_decide_div_mod_eq]

/-- Two bytes with the same eight bits are the same. -/
theorem byte_ext {v u : Byte} (h : ∀ k : Fin 8, bitOf v k = bitOf u k) : v = u := by
  apply BitVec.eq_of_getLsbD_eq
  intro i hi
  have := h ⟨i, hi⟩
  simpa [bitOf_eq_getLsbD] using this

/-- The number of a vector written as two fields. -/
theorem toNat_append_fields {n m : Nat} (h : BitVec n) (l : BitVec m) : (h ++ l).toNat = h.toNat * 2 ^ m + l.toNat := by
  rw [BitVec.toNat_append, ← Nat.shiftLeft_add_eq_or_of_lt l.isLt, Nat.shiftLeft_eq]

/-- The number of a field. -/
theorem toNat_field {n : Nat} (v : BitVec n) (i k : Nat) : (v.extractLsb' i k).toNat = v.toNat / 2 ^ i % 2 ^ k := by
  rw [BitVec.extractLsb'_toNat, Nat.shiftRight_eq_div_pow]

/-- A one-bit vector as a number. -/
theorem toNat_carryBit (b : Bool) : (carryBit b).toNat = b.toNat := by cases b <;> rfl

/-- The number of a Boolean is at most 1. -/
theorem bool_toNat_le (b : Bool) : b.toNat ≤ 1 := by cases b <;> decide

/-- The INTCON register with GIE set or cleared, in numbers. -/
theorem setGie_intcon_eq (s : State) (b : Bool) :
    (s.setGie b).intcon = BitVec.ofNat 8 (s.intcon.toNat % 128 + b.toNat * 128) := by
  apply BitVec.eq_of_toNat_eq
  have hb := bool_toNat_le b
  show (carryBit b ++ s.intcon.extractLsb' 0 7).toNat = _
  rw [toNat_append_fields, toNat_field, toNat_carryBit, BitVec.toNat_ofNat]
  omega

/-- GIE, in numbers. -/
theorem gieBit_eq (s : State) : gieBit s = s.gie := bitOf_eq_getLsbD _ _

/-- The pending flags, in numbers. -/
theorem pendingFlags_eq (s : State) : pendingFlags s = s.irqPending := by
  simp [pendingFlags, State.irqPending, State.coreIrq, bitOf_eq_getLsbD]

/-- The interrupt request, in numbers. -/
theorem interruptRequest_eq (s : State) : s.interruptRequest = (gieBit s && pendingFlags s) := by
  rw [State.interruptRequest, gieBit_eq, pendingFlags_eq]

end Sys2Proof.Machine
end

