-- ==== Sys2Proof/Laws/Encoding.lean ====
section
/-! SUPPORT. Words as fields put side by side: masking, and taking a field out again; and what it is for a row of the
opcode table to read an instruction from a word. -/

namespace Sys2Proof.Laws

/-- A mask over the high field leaves the high field. -/
theorem mask_high_field {n m : Nat} (h mask : BitVec n) (l : BitVec m) :
    (h ++ l) &&& (mask ++ 0#m) = (h &&& mask) ++ 0#m := by
  ext i hi
  simp [BitVec.getElem_append]

/-- The low field of a word. -/
theorem extract_low_field {n m : Nat} (h : BitVec n) (l : BitVec m) : (h ++ l).extractLsb' 0 m = l := by
  ext i hi
  simp [BitVec.getLsbD_append, hi]

/-- A bit above the low field. -/
theorem bit_above_low_field {n m : Nat} (h : BitVec n) (l : BitVec m) (i : Nat) (hi : m ≤ i) :
    (h ++ l).getLsbD i = h.getLsbD (i - m) := by
  simp [BitVec.getLsbD_append]
  omega

/-- A field above the low field. -/
theorem extract_above_low_field {n m k i : Nat} (h : BitVec n) (l : BitVec m) (hi : m ≤ i) :
    (h ++ l).extractLsb' i k = h.extractLsb' (i - m) k := by
  ext j hj
  simp only [BitVec.getElem_extractLsb', BitVec.getLsbD_append]
  rw [if_neg (by omega)]
  congr 1
  omega

/-- `fieldF` finds the low seven bits. -/
theorem fieldF_append (h : BitVec 7) (f : FileAddr) : fieldF (h ++ f) = f := extract_low_field h f

/-- `fieldD` finds the destination bit above `f`. -/
theorem fieldD_append (h : BitVec 6) (d : Dest) (f : FileAddr) : fieldD (h ++ destBit d ++ f) = d := by
  unfold fieldD
  rw [bit_above_low_field _ _ _ (by decide), show (7 - 7 : Nat) = 0 from rfl, BitVec.getLsbD_append]
  cases d <;> rfl

/-- `fieldB` finds the bit number above `f`. -/
theorem fieldB_append (h : BitVec 4) (b : BitVec 3) (f : FileAddr) : fieldB (h ++ b ++ f) = b :=
  (extract_above_low_field _ _ (by decide)).trans (extract_low_field h b)

/-- `fieldN` finds the pointer bit above a 6-bit literal. -/
theorem fieldN_append (h : BitVec 7) (n : FsrSel) (k : BitVec 6) : fieldN (h ++ fsrBit n ++ k) 6 = n := by
  unfold fieldN
  rw [bit_above_low_field _ _ _ (by decide), show (6 - 6 : Nat) = 0 from rfl, BitVec.getLsbD_append]
  cases n <;> rfl

/-- The row reads the instruction `i` from the word `w`. -/
def RowReads (r : OpRow) (w : ProgWord) (i : Instr) : Prop := r.accepts w = true ∧ r.build w = i

/-- A row reads an instruction from a word that shows its code under its mask. -/
theorem rowReads_of {r : OpRow} {w : ProgWord} {i : Instr} (hc : w &&& r.mask = r.code) (hg : r.guard w = true)
    (hb : r.build w = i) : RowReads r w i := by
  refine ⟨?_, hb⟩
  simp [OpRow.accepts, hc, hg]

/-- Row number `n` of the table, counted from 0, is a row of the table. -/
theorem exists_row {w : ProgWord} {i : Instr} (n : Nat) (hn : n < opTable.length) (h : RowReads opTable[n] w i) :
    ∃ r ∈ opTable, RowReads r w i := ⟨opTable[n], List.getElem_mem hn, h⟩

end Sys2Proof.Laws
end

