-- ==== Sys2Proof/Laws/Locate.lean ====
section
/-! SUPPORT. What locating an operand can answer: which addresses are refused, and that a byte of RAM it answers is an
implemented one. -/

namespace Sys2Proof.Machine

/-- Bit 15 of an FSR address says in which half of the space it is. -/
theorem fsr_bit15 (a : FsrAddr) : a.getLsbD 15 = decide (0x8000 ≤ a.toNat) := by
  have := a.isLt
  rw [BitVec.getLsbD, Nat.testBit_eq_decide_div_mod_eq]
  apply decide_eq_decide.mpr
  omega

/-- Data addresses: an INDF offset is refused, every other address is a location. -/
theorem locateData_cases (dev : Device) (a : DataAddr) :
    (a.toNat % 128 ≤ 1 → locateData dev a = .error .indirectINDF)
    ∧ (2 ≤ a.toNat % 128 → ∃ loc, locateData dev a = .ok loc) := by
  constructor <;> intro h <;> unfold locateData <;> simp only []
  · rw [if_pos h]
  · rw [if_neg (by omega)]
    split
    · exact ⟨_, rfl⟩
    · split
      · exact ⟨_, rfl⟩
      · split
        · exact ⟨_, rfl⟩
        · split <;> exact ⟨_, rfl⟩

/-- A byte of RAM at a data address is an implemented one. -/
theorem locateData_ram {dev : Device} {a : DataAddr} {k : Nat} (h : locateData dev a = .ok (.ram k)) :
    ramAddress dev k = true := by
  have core : ∀ x loc, coreRegisters.lookup x = some loc → loc ≠ .ram k := by
    intro x loc hx hl
    subst hl
    simp only [coreRegisters, List.lookup] at hx
    repeat' split at hx
    all_goals simp_all
  have named : ∀ x loc, namedRegisters.lookup x = some loc → loc ≠ .ram k := by
    intro x loc hx hl
    subst hl
    simp only [namedRegisters, List.lookup] at hx
    repeat' split at hx
    all_goals simp_all
  unfold locateData at h
  simp only [] at h
  split at h
  · simp at h
  · split at h
    · rename_i loc hl
      injection h with h
      exact absurd h (core _ _ hl)
    · split at h
      · rename_i h1 h2 h3
        injection h with h
        injection h with h
        subst h
        have : a.toNat % 128 < 128 := Nat.mod_lt _ (by decide)
        simp only [ramAddress, Bool.or_eq_true, decide_eq_true_eq]
        omega
      · split at h
        · rename_i h4
          injection h with h
          injection h with h
          subst h
          simp only [ramAddress, h4, Bool.or_true]
        · split at h
          · rename_i loc hl
            injection h with h
            exact absurd h (named _ _ hl)
          · injection h with h
            unfold unnamedLoc at h
            simp only [] at h
            split at h <;> simp at h

/-- A byte of RAM in the linear range is an implemented one. -/
theorem locateLinear_ram {dev : Device} {i k : Nat} (h : locateLinear dev i = .ram k) : ramAddress dev k = true := by
  unfold locateLinear at h
  simp only [] at h
  split at h
  · rename_i hg
    injection h with h
    subst h
    have h1 : (i / 80 * 128 + (32 + i % 80)) / 128 = i / 80 := by omega
    have h2 : (i / 80 * 128 + (32 + i % 80)) % 128 = 32 + i % 80 := by omega
    simp only [ramAddress, h1, h2, hg, Bool.or_true]
  · simp at h

/-- FSR addresses: only a traditional address with an INDF offset is refused. -/
theorem locateFsr_cases (dev : Device) (a : FsrAddr) :
    (a.toNat ≤ 0x0FFF ∧ a.toNat % 128 ≤ 1 ∧ locateFsr dev a = .error .indirectINDF)
    ∨ (¬ (a.toNat ≤ 0x0FFF ∧ a.toNat % 128 ≤ 1) ∧ ∃ loc, locateFsr dev a = .ok loc) := by
  unfold locateFsr
  rw [fsr_bit15]
  by_cases h8 : 0x8000 ≤ a.toNat
  · right
    refine ⟨by omega, .prog (a.setWidth 15), ?_⟩
    simp only [h8, decide_true, if_true]
  · simp only [h8, decide_false, Bool.false_eq_true, if_false]
    by_cases h1 : a.toNat ≤ 0x0FFF
    · have hw : (a.setWidth 12).toNat = a.toNat := by
        rw [BitVec.toNat_setWidth]
        omega
      have hc := locateData_cases dev (a.setWidth 12)
      rw [hw] at hc
      simp only [h1, if_true]
      by_cases h2 : a.toNat % 128 ≤ 1
      · exact .inl ⟨trivial, h2, hc.1 h2⟩
      · exact .inr ⟨by omega, hc.2 (by omega)⟩
    · right
      refine ⟨by omega, ?_⟩
      simp only [h1, if_false]
      split <;> exact ⟨_, rfl⟩

/-- A byte of RAM at an FSR address is an implemented one. -/
theorem locateFsr_ram {dev : Device} {a : FsrAddr} {k : Nat} (h : locateFsr dev a = .ok (.ram k)) :
    ramAddress dev k = true := by
  unfold locateFsr at h
  split at h
  · simp at h
  · split at h
    · exact locateData_ram h
    · split at h
      · injection h with h
        exact locateLinear_ram h
      · simp at h

/-- An address of the FSR space is refused exactly when it is an INDF address. -/
theorem locateFsr_error {dev : Device} {a : FsrAddr} {r : Refusal} :
    locateFsr dev a = .error r ↔ r = .indirectINDF ∧ a.toNat ≤ 0x0FFF ∧ a.toNat % 128 ≤ 1 := by
  rcases locateFsr_cases dev a with ⟨h1, h2, h3⟩ | ⟨hn, loc, h3⟩
  · rw [h3]
    exact ⟨fun h => ⟨by injection h with h; exact h.symm, h1, h2⟩, fun h => by rw [h.1]⟩
  · rw [h3]
    exact ⟨fun h => by simp at h, fun h => absurd h.2 hn⟩

/-- A file operand is refused exactly when it is INDF0 or INDF1 and that pointer holds an INDF address. -/
theorem locateFile_error {s : State} {f : FileAddr} {r : Refusal} :
    locateFile s f = .error r ↔ r = .indirectINDF ∧
      ∃ n, f = indirectOperand n ∧ (s.fsr n).toNat ≤ 0x0FFF ∧ (s.fsr n).toNat % 128 ≤ 1 := by
  unfold locateFile
  split
  · rename_i h0
    rw [locateFsr_error]
    refine and_congr_right fun _ => ⟨fun h => ⟨.fsr0, h0, h⟩, fun ⟨n, hn, h⟩ => ?_⟩
    cases n
    · exact h
    · exact absurd (h0.symm.trans hn) (by decide)
  · rename_i h0
    split
    · rename_i h1
      rw [locateFsr_error]
      refine and_congr_right fun _ => ⟨fun h => ⟨.fsr1, h1, h⟩, fun ⟨n, hn, h⟩ => ?_⟩
      cases n
      · exact absurd hn h0
      · exact h
    · rename_i h1
      have hf : 2 ≤ (s.bsr ++ f).toNat % 128 := by
        have := f.isLt
        rw [toNat_append_fields]
        have e0 : f.toNat ≠ 0 := fun e => h0 (BitVec.eq_of_toNat_eq e)
        have e1 : f.toNat ≠ 1 := fun e => h1 (BitVec.eq_of_toNat_eq e)
        omega
      obtain ⟨loc, hl⟩ := (locateData_cases s.config.device (s.bsr ++ f)).2 hf
      rw [hl]
      refine ⟨fun h => by simp at h, fun ⟨_, n, hn, _⟩ => ?_⟩
      cases n
      · exact absurd hn h0
      · exact absurd hn h1

/-- A file operand that is a byte of RAM is an implemented one. -/
theorem locateFile_ram {s : State} {f : FileAddr} {k : Nat} (h : locateFile s f = .ok (.ram k)) :
    ramAddress s.config.device k = true := by
  unfold locateFile at h
  split at h
  · exact locateFsr_ram h
  · split at h
    · exact locateFsr_ram h
    · exact locateData_ram h

/-- Where an operand lies is a matter of the pointers, BSR and the device. -/
theorem locateFile_congr {s t : State} (h0 : t.fsr0 = s.fsr0) (h1 : t.fsr1 = s.fsr1) (hb : t.bsr = s.bsr)
    (hc : t.config = s.config) (f : FileAddr) : locateFile t f = locateFile s f := by
  simp only [locateFile, h0, h1, hb, hc]

end Sys2Proof.Machine
end

