-- ==== Sys2Proof/Laws/Memory.lean ====
section
/-! SUPPORT. The memory's laws: what a read gives after a write, that every operation keeps the canonical form, and
that memories in canonical form that read alike are equal data. -/

namespace Sys2Proof.Machine

variable {α : Type}

/-! ### Reading after writing -/

@[simp] theorem cellAt_putCell_same (m : List (Nat × α)) (a : Nat) (v : α) : cellAt (putCell m a v) a = some v := by
  induction m with
  | nil => simp [putCell, cellAt]
  | cons cell rest ih =>
    obtain ⟨b, u⟩ := cell
    simp only [putCell]
    split
    · simp [cellAt]
    · split
      · simp [cellAt]
      · rename_i h; simp [cellAt, h, ih]

theorem cellAt_putCell_other (m : List (Nat × α)) {a b : Nat} (v : α) (h : b ≠ a) :
    cellAt (putCell m a v) b = cellAt m b := by
  induction m with
  | nil => simp [putCell, cellAt, h]
  | cons cell rest ih =>
    obtain ⟨x, u⟩ := cell
    simp only [putCell]
    split
    · simp [cellAt, h]
    · split
      · rename_i hx; subst hx; simp [cellAt, h]
      · simp [cellAt, ih]

theorem cellAt_of_lt (m : List (Nat × α)) {a lo : Nat} (hm : risingFrom lo m = true) (h : a < lo) : cellAt m a = none := by
  induction m generalizing lo with
  | nil => rfl
  | cons cell rest ih =>
    obtain ⟨b, u⟩ := cell
    simp only [risingFrom, Bool.and_eq_true, decide_eq_true_eq] at hm
    have hne : a ≠ b := by omega
    simp only [cellAt, hne, if_false]
    exact ih hm.2 (by omega)

theorem cellAt_dropCell_same (m : List (Nat × α)) {a lo : Nat} (hm : risingFrom lo m = true) :
    cellAt (dropCell m a) a = none := by
  induction m generalizing lo with
  | nil => rfl
  | cons cell rest ih =>
    obtain ⟨b, u⟩ := cell
    simp only [risingFrom, Bool.and_eq_true, decide_eq_true_eq] at hm
    by_cases h : a = b
    · subst h; simpa [dropCell] using cellAt_of_lt rest hm.2 (by omega)
    · simp [dropCell, cellAt, h, ih hm.2]

theorem cellAt_dropCell_other (m : List (Nat × α)) {a b : Nat} (h : b ≠ a) : cellAt (dropCell m a) b = cellAt m b := by
  induction m with
  | nil => rfl
  | cons cell rest ih =>
    obtain ⟨x, u⟩ := cell
    by_cases hx : a = x
    · subst hx; simp [dropCell, cellAt, h]
    · simp [dropCell, cellAt, hx, ih]

/-! ### The canonical form -/

theorem risingFrom_le (m : List (Nat × α)) {lo lo' : Nat} (hm : risingFrom lo m = true) (h : lo' ≤ lo) :
    risingFrom lo' m = true := by
  cases m with
  | nil => rfl
  | cons cell rest =>
    obtain ⟨b, u⟩ := cell
    simp only [risingFrom, Bool.and_eq_true, decide_eq_true_eq] at hm ⊢
    exact ⟨by omega, hm.2⟩

theorem risingFrom_putCell (m : List (Nat × α)) {lo a : Nat} (v : α) (hm : risingFrom lo m = true) (h : lo ≤ a) :
    risingFrom lo (putCell m a v) = true := by
  induction m generalizing lo with
  | nil => simp [putCell, risingFrom, h]
  | cons cell rest ih =>
    obtain ⟨b, u⟩ := cell
    simp only [risingFrom, Bool.and_eq_true, decide_eq_true_eq] at hm
    simp only [putCell]
    split
    · rename_i hlt
      simp only [risingFrom, Bool.and_eq_true, decide_eq_true_eq]
      exact ⟨h, by omega, hm.2⟩
    · split
      · rename_i he; subst he
        simp only [risingFrom, Bool.and_eq_true, decide_eq_true_eq]
        exact ⟨h, hm.2⟩
      · rename_i hlt hne
        simp only [risingFrom, Bool.and_eq_true, decide_eq_true_eq]
        exact ⟨hm.1, ih hm.2 (by omega)⟩

theorem risingFrom_dropCell (m : List (Nat × α)) {lo : Nat} (a : Nat) (hm : risingFrom lo m = true) :
    risingFrom lo (dropCell m a) = true := by
  induction m generalizing lo with
  | nil => rfl
  | cons cell rest ih =>
    obtain ⟨b, u⟩ := cell
    simp only [risingFrom, Bool.and_eq_true, decide_eq_true_eq] at hm
    simp only [dropCell]
    split
    · exact risingFrom_le rest hm.2 (by omega)
    · simp only [risingFrom, Bool.and_eq_true, decide_eq_true_eq]
      exact ⟨hm.1, ih hm.2⟩

theorem all_putCell (m : List (Nat × α)) (p : Nat × α → Bool) {a : Nat} {v : α} (hm : m.all p = true) (h : p (a, v) = true) :
    (putCell m a v).all p = true := by
  induction m with
  | nil => simp [putCell, h]
  | cons cell rest ih =>
    obtain ⟨b, u⟩ := cell
    simp only [List.all_cons, Bool.and_eq_true] at hm
    simp only [putCell]
    split
    · simp only [List.all_cons, Bool.and_eq_true]; exact ⟨h, hm⟩
    · split
      · simp only [List.all_cons, Bool.and_eq_true]; exact ⟨h, hm.2⟩
      · simp only [List.all_cons, Bool.and_eq_true]; exact ⟨hm.1, ih hm.2⟩

theorem all_dropCell (m : List (Nat × α)) (p : Nat × α → Bool) (a : Nat) (hm : m.all p = true) :
    (dropCell m a).all p = true := by
  induction m with
  | nil => rfl
  | cons cell rest ih =>
    obtain ⟨b, u⟩ := cell
    simp only [List.all_cons, Bool.and_eq_true] at hm
    simp only [dropCell]
    split
    · exact hm.2
    · simp only [List.all_cons, Bool.and_eq_true]; exact ⟨hm.1, ih hm.2⟩

/-- A write to an implemented RAM address keeps RAM in canonical form. -/
theorem Memory.wf_putCell {dev : Device} {m : List Host.Cell} {a : Nat} (v : Byte) (hm : Memory.wf dev m = true)
    (ha : ramAddress dev a = true) : Memory.wf dev (putCell m a v) = true := by
  simp only [Memory.wf, Bool.and_eq_true] at hm ⊢
  exact ⟨risingFrom_putCell m v hm.1 (Nat.zero_le a), all_putCell m _ hm.2 ha⟩

/-- Placing a word at an implemented address keeps program memory in canonical form. -/
theorem ProgMemory.wf_progPlace {dev : Device} {m : List (Nat × ProgWord)} {a : Nat} (v : ProgWord)
    (hm : ProgMemory.wf dev m = true) (ha : a < progWords dev) : ProgMemory.wf dev (progPlace m a v) = true := by
  simp only [ProgMemory.wf, Bool.and_eq_true] at hm ⊢
  unfold progPlace
  split
  · exact ⟨risingFrom_dropCell m a hm.1, all_dropCell m _ a hm.2⟩
  · rename_i hv
    exact ⟨risingFrom_putCell m v hm.1 (Nat.zero_le a), all_putCell m _ hm.2 (by simp [ha, hv])⟩

theorem progWords_pos (dev : Device) : 0 < progWords dev := by cases dev <;> decide

theorem progIndex_lt (s : State) (a : PC) : s.progIndex a < progWords s.config.device :=
  Nat.mod_lt _ (progWords_pos _)

/-- Loading a word keeps program memory in canonical form. -/
theorem ProgMemory.wf_placeAtPc {s : State} (v : ProgWord) (h : ProgMemory.wf s.config.device s.prog = true) :
    ProgMemory.wf s.config.device (s.placeAtPc v).prog = true :=
  ProgMemory.wf_progPlace v h (progIndex_lt s s.pc)

/-- The memories right after reset are in canonical form. -/
theorem reset_memory_wf :
    Memory.wf State.reset.config.device State.reset.ram = true ∧
      ProgMemory.wf State.reset.config.device State.reset.prog = true := by decide

/-- Two lists in rising order that list the same cells are the same list. -/
theorem rising_ext {m m' : List (Nat × α)} {lo : Nat} (hm : risingFrom lo m = true) (hm' : risingFrom lo m' = true)
    (h : ∀ a, cellAt m a = cellAt m' a) : m = m' := by
  induction m generalizing m' lo with
  | nil =>
    cases m' with
    | nil => rfl
    | cons cell rest => obtain ⟨b, u⟩ := cell; simpa [cellAt] using h b
  | cons cell rest ih =>
    obtain ⟨b, u⟩ := cell
    cases m' with
    | nil => simpa [cellAt] using h b
    | cons cell' rest' =>
      obtain ⟨b', u'⟩ := cell'
      simp only [risingFrom, Bool.and_eq_true, decide_eq_true_eq] at hm hm'
      have hb : b = b' := by
        rcases Nat.lt_trichotomy b b' with hlt | heq | hgt
        · have h1 := h b
          have h2 : cellAt rest' b = none := cellAt_of_lt rest' hm'.2 (by omega)
          simp [cellAt, h2, Nat.ne_of_lt hlt] at h1
        · exact heq
        · have h1 := h b'
          have h2 : cellAt rest b' = none := cellAt_of_lt rest hm.2 (by omega)
          simp [cellAt, h2, Nat.ne_of_lt hgt] at h1
      subst hb
      have hu : u = u' := by simpa [cellAt] using h b
      subst hu
      have hrest : rest = rest' := ih hm.2 hm'.2 (fun a => by
        by_cases ha : a = b
        · subst ha
          rw [cellAt_of_lt rest hm.2 (Nat.lt_succ_self a), cellAt_of_lt rest' hm'.2 (Nat.lt_succ_self a)]
        · simpa [cellAt, ha] using h a)
      rw [hrest]

/-! ### Bytes of RAM and words of program memory -/

theorem ramByte_setRam_same (s : State) (a : Nat) (v : Byte) : (s.setRam a v).ramByte a = v := by
  simp [State.setRam, State.ramByte]

theorem ramByte_setRam_other (s : State) {a b : Nat} (v : Byte) (h : b ≠ a) : (s.setRam a v).ramByte b = s.ramByte b := by
  simp [State.setRam, State.ramByte, cellAt_putCell_other _ _ h]

end Sys2Proof.Machine
end

