-- ==== Sys2Proof/Laws/State.lean ====
section
/-! SUPPORT. What each named update of the state leaves in each field: one lemma per field per update. -/

namespace Sys2Proof.Machine

/-! ### `applyFlags` -/

@[simp] theorem State.applyFlags_w (s : State) (r : AluResult) : (s.applyFlags r).w = s.w := rfl
@[simp] theorem State.applyFlags_pc (s : State) (r : AluResult) : (s.applyFlags r).pc = s.pc := rfl
@[simp] theorem State.applyFlags_c (s : State) (r : AluResult) : (s.applyFlags r).c = r.c.getD s.c := rfl
@[simp] theorem State.applyFlags_dc (s : State) (r : AluResult) : (s.applyFlags r).dc = r.dc.getD s.dc := rfl
@[simp] theorem State.applyFlags_z (s : State) (r : AluResult) : (s.applyFlags r).z = r.z.getD s.z := rfl
@[simp] theorem State.applyFlags_nPD (s : State) (r : AluResult) : (s.applyFlags r).nPD = s.nPD := rfl
@[simp] theorem State.applyFlags_nTO (s : State) (r : AluResult) : (s.applyFlags r).nTO = s.nTO := rfl
@[simp] theorem State.applyFlags_bsr (s : State) (r : AluResult) : (s.applyFlags r).bsr = s.bsr := rfl
@[simp] theorem State.applyFlags_pclath (s : State) (r : AluResult) : (s.applyFlags r).pclath = s.pclath := rfl
@[simp] theorem State.applyFlags_fsr0 (s : State) (r : AluResult) : (s.applyFlags r).fsr0 = s.fsr0 := rfl
@[simp] theorem State.applyFlags_fsr1 (s : State) (r : AluResult) : (s.applyFlags r).fsr1 = s.fsr1 := rfl
@[simp] theorem State.applyFlags_stkptr (s : State) (r : AluResult) : (s.applyFlags r).stkptr = s.stkptr := rfl
@[simp] theorem State.applyFlags_stack (s : State) (r : AluResult) : (s.applyFlags r).stack = s.stack := rfl
@[simp] theorem State.applyFlags_intcon (s : State) (r : AluResult) : (s.applyFlags r).intcon = s.intcon := rfl
@[simp] theorem State.applyFlags_pcon (s : State) (r : AluResult) : (s.applyFlags r).pcon = s.pcon := rfl
@[simp] theorem State.applyFlags_optionReg (s : State) (r : AluResult) : (s.applyFlags r).optionReg = s.optionReg := rfl
@[simp] theorem State.applyFlags_trisa (s : State) (r : AluResult) : (s.applyFlags r).trisa = s.trisa := rfl
@[simp] theorem State.applyFlags_trisb (s : State) (r : AluResult) : (s.applyFlags r).trisb = s.trisb := rfl
@[simp] theorem State.applyFlags_trisc (s : State) (r : AluResult) : (s.applyFlags r).trisc = s.trisc := rfl
@[simp] theorem State.applyFlags_wdtcon (s : State) (r : AluResult) : (s.applyFlags r).wdtcon = s.wdtcon := rfl
@[simp] theorem State.applyFlags_shadow (s : State) (r : AluResult) : (s.applyFlags r).shadow = s.shadow := rfl
@[simp] theorem State.applyFlags_asleep (s : State) (r : AluResult) : (s.applyFlags r).asleep = s.asleep := rfl
@[simp] theorem State.applyFlags_wake (s : State) (r : AluResult) : (s.applyFlags r).wake = s.wake := rfl
@[simp] theorem State.applyFlags_wdtRunning (s : State) (r : AluResult) : (s.applyFlags r).wdtRunning = s.wdtRunning := rfl
@[simp] theorem State.applyFlags_irqLine (s : State) (r : AluResult) : (s.applyFlags r).irqLine = s.irqLine := rfl
@[simp] theorem State.applyFlags_ram (s : State) (r : AluResult) : (s.applyFlags r).ram = s.ram := rfl
@[simp] theorem State.applyFlags_prog (s : State) (r : AluResult) : (s.applyFlags r).prog = s.prog := rfl
@[simp] theorem State.applyFlags_config (s : State) (r : AluResult) : (s.applyFlags r).config = s.config := rfl
@[simp] theorem State.applyFlags_powerOns (s : State) (r : AluResult) : (s.applyFlags r).powerOns = s.powerOns := rfl
@[simp] theorem State.applyFlags_sfrReads (s : State) (r : AluResult) : (s.applyFlags r).sfrReads = s.sfrReads := rfl
@[simp] theorem State.applyFlags_cycles (s : State) (r : AluResult) : (s.applyFlags r).cycles = s.cycles := rfl
@[simp] theorem State.applyFlags_schedule (s : State) (r : AluResult) : (s.applyFlags r).schedule = s.schedule := rfl

/-! ### `setRam` -/

@[simp] theorem State.setRam_w (s : State) (a : Nat) (v : Byte) : (s.setRam a v).w = s.w := rfl
@[simp] theorem State.setRam_pc (s : State) (a : Nat) (v : Byte) : (s.setRam a v).pc = s.pc := rfl
@[simp] theorem State.setRam_c (s : State) (a : Nat) (v : Byte) : (s.setRam a v).c = s.c := rfl
@[simp] theorem State.setRam_dc (s : State) (a : Nat) (v : Byte) : (s.setRam a v).dc = s.dc := rfl
@[simp] theorem State.setRam_z (s : State) (a : Nat) (v : Byte) : (s.setRam a v).z = s.z := rfl
@[simp] theorem State.setRam_nPD (s : State) (a : Nat) (v : Byte) : (s.setRam a v).nPD = s.nPD := rfl
@[simp] theorem State.setRam_nTO (s : State) (a : Nat) (v : Byte) : (s.setRam a v).nTO = s.nTO := rfl
@[simp] theorem State.setRam_bsr (s : State) (a : Nat) (v : Byte) : (s.setRam a v).bsr = s.bsr := rfl
@[simp] theorem State.setRam_pclath (s : State) (a : Nat) (v : Byte) : (s.setRam a v).pclath = s.pclath := rfl
@[simp] theorem State.setRam_fsr0 (s : State) (a : Nat) (v : Byte) : (s.setRam a v).fsr0 = s.fsr0 := rfl
@[simp] theorem State.setRam_fsr1 (s : State) (a : Nat) (v : Byte) : (s.setRam a v).fsr1 = s.fsr1 := rfl
@[simp] theorem State.setRam_stkptr (s : State) (a : Nat) (v : Byte) : (s.setRam a v).stkptr = s.stkptr := rfl
@[simp] theorem State.setRam_stack (s : State) (a : Nat) (v : Byte) : (s.setRam a v).stack = s.stack := rfl
@[simp] theorem State.setRam_intcon (s : State) (a : Nat) (v : Byte) : (s.setRam a v).intcon = s.intcon := rfl
@[simp] theorem State.setRam_pcon (s : State) (a : Nat) (v : Byte) : (s.setRam a v).pcon = s.pcon := rfl
@[simp] theorem State.setRam_optionReg (s : State) (a : Nat) (v : Byte) : (s.setRam a v).optionReg = s.optionReg := rfl
@[simp] theorem State.setRam_trisa (s : State) (a : Nat) (v : Byte) : (s.setRam a v).trisa = s.trisa := rfl
@[simp] theorem State.setRam_trisb (s : State) (a : Nat) (v : Byte) : (s.setRam a v).trisb = s.trisb := rfl
@[simp] theorem State.setRam_trisc (s : State) (a : Nat) (v : Byte) : (s.setRam a v).trisc = s.trisc := rfl
@[simp] theorem State.setRam_wdtcon (s : State) (a : Nat) (v : Byte) : (s.setRam a v).wdtcon = s.wdtcon := rfl
@[simp] theorem State.setRam_shadow (s : State) (a : Nat) (v : Byte) : (s.setRam a v).shadow = s.shadow := rfl
@[simp] theorem State.setRam_asleep (s : State) (a : Nat) (v : Byte) : (s.setRam a v).asleep = s.asleep := rfl
@[simp] theorem State.setRam_wake (s : State) (a : Nat) (v : Byte) : (s.setRam a v).wake = s.wake := rfl
@[simp] theorem State.setRam_wdtRunning (s : State) (a : Nat) (v : Byte) : (s.setRam a v).wdtRunning = s.wdtRunning := rfl
@[simp] theorem State.setRam_irqLine (s : State) (a : Nat) (v : Byte) : (s.setRam a v).irqLine = s.irqLine := rfl
@[simp] theorem State.setRam_ram (s : State) (a : Nat) (v : Byte) : (s.setRam a v).ram = putCell s.ram a v := rfl
@[simp] theorem State.setRam_prog (s : State) (a : Nat) (v : Byte) : (s.setRam a v).prog = s.prog := rfl
@[simp] theorem State.setRam_config (s : State) (a : Nat) (v : Byte) : (s.setRam a v).config = s.config := rfl
@[simp] theorem State.setRam_powerOns (s : State) (a : Nat) (v : Byte) : (s.setRam a v).powerOns = s.powerOns := rfl
@[simp] theorem State.setRam_sfrReads (s : State) (a : Nat) (v : Byte) : (s.setRam a v).sfrReads = s.sfrReads := rfl
@[simp] theorem State.setRam_cycles (s : State) (a : Nat) (v : Byte) : (s.setRam a v).cycles = s.cycles := rfl
@[simp] theorem State.setRam_schedule (s : State) (a : Nat) (v : Byte) : (s.setRam a v).schedule = s.schedule := rfl

/-! ### `setFsr` -/

@[simp] theorem State.setFsr_w (s : State) (n : FsrSel) (v : FsrAddr) : (s.setFsr n v).w = s.w := by cases n <;> rfl
@[simp] theorem State.setFsr_pc (s : State) (n : FsrSel) (v : FsrAddr) : (s.setFsr n v).pc = s.pc := by cases n <;> rfl
@[simp] theorem State.setFsr_c (s : State) (n : FsrSel) (v : FsrAddr) : (s.setFsr n v).c = s.c := by cases n <;> rfl
@[simp] theorem State.setFsr_dc (s : State) (n : FsrSel) (v : FsrAddr) : (s.setFsr n v).dc = s.dc := by cases n <;> rfl
@[simp] theorem State.setFsr_z (s : State) (n : FsrSel) (v : FsrAddr) : (s.setFsr n v).z = s.z := by cases n <;> rfl
@[simp] theorem State.setFsr_nPD (s : State) (n : FsrSel) (v : FsrAddr) : (s.setFsr n v).nPD = s.nPD := by cases n <;> rfl
@[simp] theorem State.setFsr_nTO (s : State) (n : FsrSel) (v : FsrAddr) : (s.setFsr n v).nTO = s.nTO := by cases n <;> rfl
@[simp] theorem State.setFsr_bsr (s : State) (n : FsrSel) (v : FsrAddr) : (s.setFsr n v).bsr = s.bsr := by cases n <;> rfl
@[simp] theorem State.setFsr_pclath (s : State) (n : FsrSel) (v : FsrAddr) : (s.setFsr n v).pclath = s.pclath := by cases n <;> rfl
@[simp] theorem State.setFsr_fsr0 (s : State) (n : FsrSel) (v : FsrAddr) : (s.setFsr n v).fsr0 = if n = .fsr0 then v else s.fsr0 := by cases n <;> rfl
@[simp] theorem State.setFsr_fsr1 (s : State) (n : FsrSel) (v : FsrAddr) : (s.setFsr n v).fsr1 = if n = .fsr1 then v else s.fsr1 := by cases n <;> rfl
@[simp] theorem State.setFsr_stkptr (s : State) (n : FsrSel) (v : FsrAddr) : (s.setFsr n v).stkptr = s.stkptr := by cases n <;> rfl
@[simp] theorem State.setFsr_stack (s : State) (n : FsrSel) (v : FsrAddr) : (s.setFsr n v).stack = s.stack := by cases n <;> rfl
@[simp] theorem State.setFsr_intcon (s : State) (n : FsrSel) (v : FsrAddr) : (s.setFsr n v).intcon = s.intcon := by cases n <;> rfl
@[simp] theorem State.setFsr_pcon (s : State) (n : FsrSel) (v : FsrAddr) : (s.setFsr n v).pcon = s.pcon := by cases n <;> rfl
@[simp] theorem State.setFsr_optionReg (s : State) (n : FsrSel) (v : FsrAddr) : (s.setFsr n v).optionReg = s.optionReg := by cases n <;> rfl
@[simp] theorem State.setFsr_trisa (s : State) (n : FsrSel) (v : FsrAddr) : (s.setFsr n v).trisa = s.trisa := by cases n <;> rfl
@[simp] theorem State.setFsr_trisb (s : State) (n : FsrSel) (v : FsrAddr) : (s.setFsr n v).trisb = s.trisb := by cases n <;> rfl
@[simp] theorem State.setFsr_trisc (s : State) (n : FsrSel) (v : FsrAddr) : (s.setFsr n v).trisc = s.trisc := by cases n <;> rfl
@[simp] theorem State.setFsr_wdtcon (s : State) (n : FsrSel) (v : FsrAddr) : (s.setFsr n v).wdtcon = s.wdtcon := by cases n <;> rfl
@[simp] theorem State.setFsr_shadow (s : State) (n : FsrSel) (v : FsrAddr) : (s.setFsr n v).shadow = s.shadow := by cases n <;> rfl
@[simp] theorem State.setFsr_asleep (s : State) (n : FsrSel) (v : FsrAddr) : (s.setFsr n v).asleep = s.asleep := by cases n <;> rfl
@[simp] theorem State.setFsr_wake (s : State) (n : FsrSel) (v : FsrAddr) : (s.setFsr n v).wake = s.wake := by cases n <;> rfl
@[simp] theorem State.setFsr_wdtRunning (s : State) (n : FsrSel) (v : FsrAddr) : (s.setFsr n v).wdtRunning = s.wdtRunning := by cases n <;> rfl
@[simp] theorem State.setFsr_irqLine (s : State) (n : FsrSel) (v : FsrAddr) : (s.setFsr n v).irqLine = s.irqLine := by cases n <;> rfl
@[simp] theorem State.setFsr_ram (s : State) (n : FsrSel) (v : FsrAddr) : (s.setFsr n v).ram = s.ram := by cases n <;> rfl
@[simp] theorem State.setFsr_prog (s : State) (n : FsrSel) (v : FsrAddr) : (s.setFsr n v).prog = s.prog := by cases n <;> rfl
@[simp] theorem State.setFsr_config (s : State) (n : FsrSel) (v : FsrAddr) : (s.setFsr n v).config = s.config := by cases n <;> rfl
@[simp] theorem State.setFsr_powerOns (s : State) (n : FsrSel) (v : FsrAddr) : (s.setFsr n v).powerOns = s.powerOns := by cases n <;> rfl
@[simp] theorem State.setFsr_sfrReads (s : State) (n : FsrSel) (v : FsrAddr) : (s.setFsr n v).sfrReads = s.sfrReads := by cases n <;> rfl
@[simp] theorem State.setFsr_cycles (s : State) (n : FsrSel) (v : FsrAddr) : (s.setFsr n v).cycles = s.cycles := by cases n <;> rfl
@[simp] theorem State.setFsr_schedule (s : State) (n : FsrSel) (v : FsrAddr) : (s.setFsr n v).schedule = s.schedule := by cases n <;> rfl

/-! ### `setStackEntry` -/

@[simp] theorem State.setStackEntry_w (s : State) (p : BitVec 5) (v : PC) : (s.setStackEntry p v).w = s.w := rfl
@[simp] theorem State.setStackEntry_pc (s : State) (p : BitVec 5) (v : PC) : (s.setStackEntry p v).pc = s.pc := rfl
@[simp] theorem State.setStackEntry_c (s : State) (p : BitVec 5) (v : PC) : (s.setStackEntry p v).c = s.c := rfl
@[simp] theorem State.setStackEntry_dc (s : State) (p : BitVec 5) (v : PC) : (s.setStackEntry p v).dc = s.dc := rfl
@[simp] theorem State.setStackEntry_z (s : State) (p : BitVec 5) (v : PC) : (s.setStackEntry p v).z = s.z := rfl
@[simp] theorem State.setStackEntry_nPD (s : State) (p : BitVec 5) (v : PC) : (s.setStackEntry p v).nPD = s.nPD := rfl
@[simp] theorem State.setStackEntry_nTO (s : State) (p : BitVec 5) (v : PC) : (s.setStackEntry p v).nTO = s.nTO := rfl
@[simp] theorem State.setStackEntry_bsr (s : State) (p : BitVec 5) (v : PC) : (s.setStackEntry p v).bsr = s.bsr := rfl
@[simp] theorem State.setStackEntry_pclath (s : State) (p : BitVec 5) (v : PC) : (s.setStackEntry p v).pclath = s.pclath := rfl
@[simp] theorem State.setStackEntry_fsr0 (s : State) (p : BitVec 5) (v : PC) : (s.setStackEntry p v).fsr0 = s.fsr0 := rfl
@[simp] theorem State.setStackEntry_fsr1 (s : State) (p : BitVec 5) (v : PC) : (s.setStackEntry p v).fsr1 = s.fsr1 := rfl
@[simp] theorem State.setStackEntry_stkptr (s : State) (p : BitVec 5) (v : PC) : (s.setStackEntry p v).stkptr = s.stkptr := rfl
@[simp] theorem State.setStackEntry_stack (s : State) (p : BitVec 5) (v : PC) : (s.setStackEntry p v).stack = s.stack.set (stackSlot p).val v (stackSlot p).isLt := rfl
@[simp] theorem State.setStackEntry_intcon (s : State) (p : BitVec 5) (v : PC) : (s.setStackEntry p v).intcon = s.intcon := rfl
@[simp] theorem State.setStackEntry_pcon (s : State) (p : BitVec 5) (v : PC) : (s.setStackEntry p v).pcon = s.pcon := rfl
@[simp] theorem State.setStackEntry_optionReg (s : State) (p : BitVec 5) (v : PC) : (s.setStackEntry p v).optionReg = s.optionReg := rfl
@[simp] theorem State.setStackEntry_trisa (s : State) (p : BitVec 5) (v : PC) : (s.setStackEntry p v).trisa = s.trisa := rfl
@[simp] theorem State.setStackEntry_trisb (s : State) (p : BitVec 5) (v : PC) : (s.setStackEntry p v).trisb = s.trisb := rfl
@[simp] theorem State.setStackEntry_trisc (s : State) (p : BitVec 5) (v : PC) : (s.setStackEntry p v).trisc = s.trisc := rfl
@[simp] theorem State.setStackEntry_wdtcon (s : State) (p : BitVec 5) (v : PC) : (s.setStackEntry p v).wdtcon = s.wdtcon := rfl
@[simp] theorem State.setStackEntry_shadow (s : State) (p : BitVec 5) (v : PC) : (s.setStackEntry p v).shadow = s.shadow := rfl
@[simp] theorem State.setStackEntry_asleep (s : State) (p : BitVec 5) (v : PC) : (s.setStackEntry p v).asleep = s.asleep := rfl
@[simp] theorem State.setStackEntry_wake (s : State) (p : BitVec 5) (v : PC) : (s.setStackEntry p v).wake = s.wake := rfl
@[simp] theorem State.setStackEntry_wdtRunning (s : State) (p : BitVec 5) (v : PC) : (s.setStackEntry p v).wdtRunning = s.wdtRunning := rfl
@[simp] theorem State.setStackEntry_irqLine (s : State) (p : BitVec 5) (v : PC) : (s.setStackEntry p v).irqLine = s.irqLine := rfl
@[simp] theorem State.setStackEntry_ram (s : State) (p : BitVec 5) (v : PC) : (s.setStackEntry p v).ram = s.ram := rfl
@[simp] theorem State.setStackEntry_prog (s : State) (p : BitVec 5) (v : PC) : (s.setStackEntry p v).prog = s.prog := rfl
@[simp] theorem State.setStackEntry_config (s : State) (p : BitVec 5) (v : PC) : (s.setStackEntry p v).config = s.config := rfl
@[simp] theorem State.setStackEntry_powerOns (s : State) (p : BitVec 5) (v : PC) : (s.setStackEntry p v).powerOns = s.powerOns := rfl
@[simp] theorem State.setStackEntry_sfrReads (s : State) (p : BitVec 5) (v : PC) : (s.setStackEntry p v).sfrReads = s.sfrReads := rfl
@[simp] theorem State.setStackEntry_cycles (s : State) (p : BitVec 5) (v : PC) : (s.setStackEntry p v).cycles = s.cycles := rfl
@[simp] theorem State.setStackEntry_schedule (s : State) (p : BitVec 5) (v : PC) : (s.setStackEntry p v).schedule = s.schedule := rfl

/-! ### `continueAt` -/

@[simp] theorem State.continueAt_w (s : State) (t : PC) (n : Nat) : (s.continueAt t n).w = s.w := rfl
@[simp] theorem State.continueAt_pc (s : State) (t : PC) (n : Nat) : (s.continueAt t n).pc = t := rfl
@[simp] theorem State.continueAt_c (s : State) (t : PC) (n : Nat) : (s.continueAt t n).c = s.c := rfl
@[simp] theorem State.continueAt_dc (s : State) (t : PC) (n : Nat) : (s.continueAt t n).dc = s.dc := rfl
@[simp] theorem State.continueAt_z (s : State) (t : PC) (n : Nat) : (s.continueAt t n).z = s.z := rfl
@[simp] theorem State.continueAt_nPD (s : State) (t : PC) (n : Nat) : (s.continueAt t n).nPD = s.nPD := rfl
@[simp] theorem State.continueAt_nTO (s : State) (t : PC) (n : Nat) : (s.continueAt t n).nTO = s.nTO := rfl
@[simp] theorem State.continueAt_bsr (s : State) (t : PC) (n : Nat) : (s.continueAt t n).bsr = s.bsr := rfl
@[simp] theorem State.continueAt_pclath (s : State) (t : PC) (n : Nat) : (s.continueAt t n).pclath = s.pclath := rfl
@[simp] theorem State.continueAt_fsr0 (s : State) (t : PC) (n : Nat) : (s.continueAt t n).fsr0 = s.fsr0 := rfl
@[simp] theorem State.continueAt_fsr1 (s : State) (t : PC) (n : Nat) : (s.continueAt t n).fsr1 = s.fsr1 := rfl
@[simp] theorem State.continueAt_stkptr (s : State) (t : PC) (n : Nat) : (s.continueAt t n).stkptr = s.stkptr := rfl
@[simp] theorem State.continueAt_stack (s : State) (t : PC) (n : Nat) : (s.continueAt t n).stack = s.stack := rfl
@[simp] theorem State.continueAt_intcon (s : State) (t : PC) (n : Nat) : (s.continueAt t n).intcon = s.intcon := rfl
@[simp] theorem State.continueAt_pcon (s : State) (t : PC) (n : Nat) : (s.continueAt t n).pcon = s.pcon := rfl
@[simp] theorem State.continueAt_optionReg (s : State) (t : PC) (n : Nat) : (s.continueAt t n).optionReg = s.optionReg := rfl
@[simp] theorem State.continueAt_trisa (s : State) (t : PC) (n : Nat) : (s.continueAt t n).trisa = s.trisa := rfl
@[simp] theorem State.continueAt_trisb (s : State) (t : PC) (n : Nat) : (s.continueAt t n).trisb = s.trisb := rfl
@[simp] theorem State.continueAt_trisc (s : State) (t : PC) (n : Nat) : (s.continueAt t n).trisc = s.trisc := rfl
@[simp] theorem State.continueAt_wdtcon (s : State) (t : PC) (n : Nat) : (s.continueAt t n).wdtcon = s.wdtcon := rfl
@[simp] theorem State.continueAt_shadow (s : State) (t : PC) (n : Nat) : (s.continueAt t n).shadow = s.shadow := rfl
@[simp] theorem State.continueAt_asleep (s : State) (t : PC) (n : Nat) : (s.continueAt t n).asleep = s.asleep := rfl
@[simp] theorem State.continueAt_wake (s : State) (t : PC) (n : Nat) : (s.continueAt t n).wake = s.wake := rfl
@[simp] theorem State.continueAt_wdtRunning (s : State) (t : PC) (n : Nat) : (s.continueAt t n).wdtRunning = s.wdtRunning := rfl
@[simp] theorem State.continueAt_irqLine (s : State) (t : PC) (n : Nat) : (s.continueAt t n).irqLine = s.irqLine := rfl
@[simp] theorem State.continueAt_ram (s : State) (t : PC) (n : Nat) : (s.continueAt t n).ram = s.ram := rfl
@[simp] theorem State.continueAt_prog (s : State) (t : PC) (n : Nat) : (s.continueAt t n).prog = s.prog := rfl
@[simp] theorem State.continueAt_config (s : State) (t : PC) (n : Nat) : (s.continueAt t n).config = s.config := rfl
@[simp] theorem State.continueAt_powerOns (s : State) (t : PC) (n : Nat) : (s.continueAt t n).powerOns = s.powerOns := rfl
@[simp] theorem State.continueAt_sfrReads (s : State) (t : PC) (n : Nat) : (s.continueAt t n).sfrReads = s.sfrReads := rfl
@[simp] theorem State.continueAt_cycles (s : State) (t : PC) (n : Nat) : (s.continueAt t n).cycles = s.cycles + n := rfl
@[simp] theorem State.continueAt_schedule (s : State) (t : PC) (n : Nat) : (s.continueAt t n).schedule = s.schedule := rfl

/-! ### `wdtClear` -/

@[simp] theorem State.wdtClear_w (s : State) : (s.wdtClear).w = s.w := rfl
@[simp] theorem State.wdtClear_pc (s : State) : (s.wdtClear).pc = s.pc := rfl
@[simp] theorem State.wdtClear_c (s : State) : (s.wdtClear).c = s.c := rfl
@[simp] theorem State.wdtClear_dc (s : State) : (s.wdtClear).dc = s.dc := rfl
@[simp] theorem State.wdtClear_z (s : State) : (s.wdtClear).z = s.z := rfl
@[simp] theorem State.wdtClear_nPD (s : State) : (s.wdtClear).nPD = s.nPD := rfl
@[simp] theorem State.wdtClear_nTO (s : State) : (s.wdtClear).nTO = s.nTO := rfl
@[simp] theorem State.wdtClear_bsr (s : State) : (s.wdtClear).bsr = s.bsr := rfl
@[simp] theorem State.wdtClear_pclath (s : State) : (s.wdtClear).pclath = s.pclath := rfl
@[simp] theorem State.wdtClear_fsr0 (s : State) : (s.wdtClear).fsr0 = s.fsr0 := rfl
@[simp] theorem State.wdtClear_fsr1 (s : State) : (s.wdtClear).fsr1 = s.fsr1 := rfl
@[simp] theorem State.wdtClear_stkptr (s : State) : (s.wdtClear).stkptr = s.stkptr := rfl
@[simp] theorem State.wdtClear_stack (s : State) : (s.wdtClear).stack = s.stack := rfl
@[simp] theorem State.wdtClear_intcon (s : State) : (s.wdtClear).intcon = s.intcon := rfl
@[simp] theorem State.wdtClear_pcon (s : State) : (s.wdtClear).pcon = s.pcon := rfl
@[simp] theorem State.wdtClear_optionReg (s : State) : (s.wdtClear).optionReg = s.optionReg := rfl
@[simp] theorem State.wdtClear_trisa (s : State) : (s.wdtClear).trisa = s.trisa := rfl
@[simp] theorem State.wdtClear_trisb (s : State) : (s.wdtClear).trisb = s.trisb := rfl
@[simp] theorem State.wdtClear_trisc (s : State) : (s.wdtClear).trisc = s.trisc := rfl
@[simp] theorem State.wdtClear_wdtcon (s : State) : (s.wdtClear).wdtcon = s.wdtcon := rfl
@[simp] theorem State.wdtClear_shadow (s : State) : (s.wdtClear).shadow = s.shadow := rfl
@[simp] theorem State.wdtClear_asleep (s : State) : (s.wdtClear).asleep = s.asleep := rfl
@[simp] theorem State.wdtClear_wake (s : State) : (s.wdtClear).wake = s.wake := rfl
@[simp] theorem State.wdtClear_wdtRunning (s : State) : (s.wdtClear).wdtRunning = false := rfl
@[simp] theorem State.wdtClear_irqLine (s : State) : (s.wdtClear).irqLine = s.irqLine := rfl
@[simp] theorem State.wdtClear_ram (s : State) : (s.wdtClear).ram = s.ram := rfl
@[simp] theorem State.wdtClear_prog (s : State) : (s.wdtClear).prog = s.prog := rfl
@[simp] theorem State.wdtClear_config (s : State) : (s.wdtClear).config = s.config := rfl
@[simp] theorem State.wdtClear_powerOns (s : State) : (s.wdtClear).powerOns = s.powerOns := rfl
@[simp] theorem State.wdtClear_sfrReads (s : State) : (s.wdtClear).sfrReads = s.sfrReads := rfl
@[simp] theorem State.wdtClear_cycles (s : State) : (s.wdtClear).cycles = s.cycles := rfl
@[simp] theorem State.wdtClear_schedule (s : State) : (s.wdtClear).schedule = s.schedule := rfl

/-! ### `setGie` -/

@[simp] theorem State.setGie_w (s : State) (b : Bool) : (s.setGie b).w = s.w := rfl
@[simp] theorem State.setGie_pc (s : State) (b : Bool) : (s.setGie b).pc = s.pc := rfl
@[simp] theorem State.setGie_c (s : State) (b : Bool) : (s.setGie b).c = s.c := rfl
@[simp] theorem State.setGie_dc (s : State) (b : Bool) : (s.setGie b).dc = s.dc := rfl
@[simp] theorem State.setGie_z (s : State) (b : Bool) : (s.setGie b).z = s.z := rfl
@[simp] theorem State.setGie_nPD (s : State) (b : Bool) : (s.setGie b).nPD = s.nPD := rfl
@[simp] theorem State.setGie_nTO (s : State) (b : Bool) : (s.setGie b).nTO = s.nTO := rfl
@[simp] theorem State.setGie_bsr (s : State) (b : Bool) : (s.setGie b).bsr = s.bsr := rfl
@[simp] theorem State.setGie_pclath (s : State) (b : Bool) : (s.setGie b).pclath = s.pclath := rfl
@[simp] theorem State.setGie_fsr0 (s : State) (b : Bool) : (s.setGie b).fsr0 = s.fsr0 := rfl
@[simp] theorem State.setGie_fsr1 (s : State) (b : Bool) : (s.setGie b).fsr1 = s.fsr1 := rfl
@[simp] theorem State.setGie_stkptr (s : State) (b : Bool) : (s.setGie b).stkptr = s.stkptr := rfl
@[simp] theorem State.setGie_stack (s : State) (b : Bool) : (s.setGie b).stack = s.stack := rfl
@[simp] theorem State.setGie_intcon (s : State) (b : Bool) : (s.setGie b).intcon = carryBit b ++ s.intcon.extractLsb' 0 7 := rfl
@[simp] theorem State.setGie_pcon (s : State) (b : Bool) : (s.setGie b).pcon = s.pcon := rfl
@[simp] theorem State.setGie_optionReg (s : State) (b : Bool) : (s.setGie b).optionReg = s.optionReg := rfl
@[simp] theorem State.setGie_trisa (s : State) (b : Bool) : (s.setGie b).trisa = s.trisa := rfl
@[simp] theorem State.setGie_trisb (s : State) (b : Bool) : (s.setGie b).trisb = s.trisb := rfl
@[simp] theorem State.setGie_trisc (s : State) (b : Bool) : (s.setGie b).trisc = s.trisc := rfl
@[simp] theorem State.setGie_wdtcon (s : State) (b : Bool) : (s.setGie b).wdtcon = s.wdtcon := rfl
@[simp] theorem State.setGie_shadow (s : State) (b : Bool) : (s.setGie b).shadow = s.shadow := rfl
@[simp] theorem State.setGie_asleep (s : State) (b : Bool) : (s.setGie b).asleep = s.asleep := rfl
@[simp] theorem State.setGie_wake (s : State) (b : Bool) : (s.setGie b).wake = s.wake := rfl
@[simp] theorem State.setGie_wdtRunning (s : State) (b : Bool) : (s.setGie b).wdtRunning = s.wdtRunning := rfl
@[simp] theorem State.setGie_irqLine (s : State) (b : Bool) : (s.setGie b).irqLine = s.irqLine := rfl
@[simp] theorem State.setGie_ram (s : State) (b : Bool) : (s.setGie b).ram = s.ram := rfl
@[simp] theorem State.setGie_prog (s : State) (b : Bool) : (s.setGie b).prog = s.prog := rfl
@[simp] theorem State.setGie_config (s : State) (b : Bool) : (s.setGie b).config = s.config := rfl
@[simp] theorem State.setGie_powerOns (s : State) (b : Bool) : (s.setGie b).powerOns = s.powerOns := rfl
@[simp] theorem State.setGie_sfrReads (s : State) (b : Bool) : (s.setGie b).sfrReads = s.sfrReads := rfl
@[simp] theorem State.setGie_cycles (s : State) (b : Bool) : (s.setGie b).cycles = s.cycles := rfl
@[simp] theorem State.setGie_schedule (s : State) (b : Bool) : (s.setGie b).schedule = s.schedule := rfl

/-! ### `restoreShadows` -/

@[simp] theorem State.restoreShadows_w (s : State) : (s.restoreShadows).w = s.shadow.wreg := rfl
@[simp] theorem State.restoreShadows_pc (s : State) : (s.restoreShadows).pc = s.pc := rfl
@[simp] theorem State.restoreShadows_c (s : State) : (s.restoreShadows).c = s.shadow.status.getLsbD 0 := rfl
@[simp] theorem State.restoreShadows_dc (s : State) : (s.restoreShadows).dc = s.shadow.status.getLsbD 1 := rfl
@[simp] theorem State.restoreShadows_z (s : State) : (s.restoreShadows).z = s.shadow.status.getLsbD 2 := rfl
@[simp] theorem State.restoreShadows_nPD (s : State) : (s.restoreShadows).nPD = s.nPD := rfl
@[simp] theorem State.restoreShadows_nTO (s : State) : (s.restoreShadows).nTO = s.nTO := rfl
@[simp] theorem State.restoreShadows_bsr (s : State) : (s.restoreShadows).bsr = s.shadow.bsr := rfl
@[simp] theorem State.restoreShadows_pclath (s : State) : (s.restoreShadows).pclath = s.shadow.pclath := rfl
@[simp] theorem State.restoreShadows_fsr0 (s : State) : (s.restoreShadows).fsr0 = s.shadow.fsr0h ++ s.shadow.fsr0l := rfl
@[simp] theorem State.restoreShadows_fsr1 (s : State) : (s.restoreShadows).fsr1 = s.shadow.fsr1h ++ s.shadow.fsr1l := rfl
@[simp] theorem State.restoreShadows_stkptr (s : State) : (s.restoreShadows).stkptr = s.stkptr := rfl
@[simp] theorem State.restoreShadows_stack (s : State) : (s.restoreShadows).stack = s.stack := rfl
@[simp] theorem State.restoreShadows_intcon (s : State) : (s.restoreShadows).intcon = s.intcon := rfl
@[simp] theorem State.restoreShadows_pcon (s : State) : (s.restoreShadows).pcon = s.pcon := rfl
@[simp] theorem State.restoreShadows_optionReg (s : State) : (s.restoreShadows).optionReg = s.optionReg := rfl
@[simp] theorem State.restoreShadows_trisa (s : State) : (s.restoreShadows).trisa = s.trisa := rfl
@[simp] theorem State.restoreShadows_trisb (s : State) : (s.restoreShadows).trisb = s.trisb := rfl
@[simp] theorem State.restoreShadows_trisc (s : State) : (s.restoreShadows).trisc = s.trisc := rfl
@[simp] theorem State.restoreShadows_wdtcon (s : State) : (s.restoreShadows).wdtcon = s.wdtcon := rfl
@[simp] theorem State.restoreShadows_shadow (s : State) : (s.restoreShadows).shadow = s.shadow := rfl
@[simp] theorem State.restoreShadows_asleep (s : State) : (s.restoreShadows).asleep = s.asleep := rfl
@[simp] theorem State.restoreShadows_wake (s : State) : (s.restoreShadows).wake = s.wake := rfl
@[simp] theorem State.restoreShadows_wdtRunning (s : State) : (s.restoreShadows).wdtRunning = s.wdtRunning := rfl
@[simp] theorem State.restoreShadows_irqLine (s : State) : (s.restoreShadows).irqLine = s.irqLine := rfl
@[simp] theorem State.restoreShadows_ram (s : State) : (s.restoreShadows).ram = s.ram := rfl
@[simp] theorem State.restoreShadows_prog (s : State) : (s.restoreShadows).prog = s.prog := rfl
@[simp] theorem State.restoreShadows_config (s : State) : (s.restoreShadows).config = s.config := rfl
@[simp] theorem State.restoreShadows_powerOns (s : State) : (s.restoreShadows).powerOns = s.powerOns := rfl
@[simp] theorem State.restoreShadows_sfrReads (s : State) : (s.restoreShadows).sfrReads = s.sfrReads := rfl
@[simp] theorem State.restoreShadows_cycles (s : State) : (s.restoreShadows).cycles = s.cycles := rfl
@[simp] theorem State.restoreShadows_schedule (s : State) : (s.restoreShadows).schedule = s.schedule := rfl

/-! ### `enterSleep` -/

@[simp] theorem State.enterSleep_w (s : State) : (s.enterSleep).w = s.w := rfl
@[simp] theorem State.enterSleep_pc (s : State) : (s.enterSleep).pc = s.pc := rfl
@[simp] theorem State.enterSleep_c (s : State) : (s.enterSleep).c = s.c := rfl
@[simp] theorem State.enterSleep_dc (s : State) : (s.enterSleep).dc = s.dc := rfl
@[simp] theorem State.enterSleep_z (s : State) : (s.enterSleep).z = s.z := rfl
@[simp] theorem State.enterSleep_nPD (s : State) : (s.enterSleep).nPD = false := rfl
@[simp] theorem State.enterSleep_nTO (s : State) : (s.enterSleep).nTO = true := rfl
@[simp] theorem State.enterSleep_bsr (s : State) : (s.enterSleep).bsr = s.bsr := rfl
@[simp] theorem State.enterSleep_pclath (s : State) : (s.enterSleep).pclath = s.pclath := rfl
@[simp] theorem State.enterSleep_fsr0 (s : State) : (s.enterSleep).fsr0 = s.fsr0 := rfl
@[simp] theorem State.enterSleep_fsr1 (s : State) : (s.enterSleep).fsr1 = s.fsr1 := rfl
@[simp] theorem State.enterSleep_stkptr (s : State) : (s.enterSleep).stkptr = s.stkptr := rfl
@[simp] theorem State.enterSleep_stack (s : State) : (s.enterSleep).stack = s.stack := rfl
@[simp] theorem State.enterSleep_intcon (s : State) : (s.enterSleep).intcon = s.intcon := rfl
@[simp] theorem State.enterSleep_pcon (s : State) : (s.enterSleep).pcon = s.pcon := rfl
@[simp] theorem State.enterSleep_optionReg (s : State) : (s.enterSleep).optionReg = s.optionReg := rfl
@[simp] theorem State.enterSleep_trisa (s : State) : (s.enterSleep).trisa = s.trisa := rfl
@[simp] theorem State.enterSleep_trisb (s : State) : (s.enterSleep).trisb = s.trisb := rfl
@[simp] theorem State.enterSleep_trisc (s : State) : (s.enterSleep).trisc = s.trisc := rfl
@[simp] theorem State.enterSleep_wdtcon (s : State) : (s.enterSleep).wdtcon = s.wdtcon := rfl
@[simp] theorem State.enterSleep_shadow (s : State) : (s.enterSleep).shadow = s.shadow := rfl
@[simp] theorem State.enterSleep_asleep (s : State) : (s.enterSleep).asleep = true := rfl
@[simp] theorem State.enterSleep_wake (s : State) : (s.enterSleep).wake = .settled := rfl
@[simp] theorem State.enterSleep_wdtRunning (s : State) : (s.enterSleep).wdtRunning = false := rfl
@[simp] theorem State.enterSleep_irqLine (s : State) : (s.enterSleep).irqLine = s.irqLine := rfl
@[simp] theorem State.enterSleep_ram (s : State) : (s.enterSleep).ram = s.ram := rfl
@[simp] theorem State.enterSleep_prog (s : State) : (s.enterSleep).prog = s.prog := rfl
@[simp] theorem State.enterSleep_config (s : State) : (s.enterSleep).config = s.config := rfl
@[simp] theorem State.enterSleep_powerOns (s : State) : (s.enterSleep).powerOns = s.powerOns := rfl
@[simp] theorem State.enterSleep_sfrReads (s : State) : (s.enterSleep).sfrReads = s.sfrReads := rfl
@[simp] theorem State.enterSleep_cycles (s : State) : (s.enterSleep).cycles = s.cycles := rfl
@[simp] theorem State.enterSleep_schedule (s : State) : (s.enterSleep).schedule = s.schedule := rfl

/-! ### `placeAtPc` -/

@[simp] theorem State.placeAtPc_w (s : State) (v : ProgWord) : (s.placeAtPc v).w = s.w := rfl
@[simp] theorem State.placeAtPc_pc (s : State) (v : ProgWord) : (s.placeAtPc v).pc = s.pc := rfl
@[simp] theorem State.placeAtPc_c (s : State) (v : ProgWord) : (s.placeAtPc v).c = s.c := rfl
@[simp] theorem State.placeAtPc_dc (s : State) (v : ProgWord) : (s.placeAtPc v).dc = s.dc := rfl
@[simp] theorem State.placeAtPc_z (s : State) (v : ProgWord) : (s.placeAtPc v).z = s.z := rfl
@[simp] theorem State.placeAtPc_nPD (s : State) (v : ProgWord) : (s.placeAtPc v).nPD = s.nPD := rfl
@[simp] theorem State.placeAtPc_nTO (s : State) (v : ProgWord) : (s.placeAtPc v).nTO = s.nTO := rfl
@[simp] theorem State.placeAtPc_bsr (s : State) (v : ProgWord) : (s.placeAtPc v).bsr = s.bsr := rfl
@[simp] theorem State.placeAtPc_pclath (s : State) (v : ProgWord) : (s.placeAtPc v).pclath = s.pclath := rfl
@[simp] theorem State.placeAtPc_fsr0 (s : State) (v : ProgWord) : (s.placeAtPc v).fsr0 = s.fsr0 := rfl
@[simp] theorem State.placeAtPc_fsr1 (s : State) (v : ProgWord) : (s.placeAtPc v).fsr1 = s.fsr1 := rfl
@[simp] theorem State.placeAtPc_stkptr (s : State) (v : ProgWord) : (s.placeAtPc v).stkptr = s.stkptr := rfl
@[simp] theorem State.placeAtPc_stack (s : State) (v : ProgWord) : (s.placeAtPc v).stack = s.stack := rfl
@[simp] theorem State.placeAtPc_intcon (s : State) (v : ProgWord) : (s.placeAtPc v).intcon = s.intcon := rfl
@[simp] theorem State.placeAtPc_pcon (s : State) (v : ProgWord) : (s.placeAtPc v).pcon = s.pcon := rfl
@[simp] theorem State.placeAtPc_optionReg (s : State) (v : ProgWord) : (s.placeAtPc v).optionReg = s.optionReg := rfl
@[simp] theorem State.placeAtPc_trisa (s : State) (v : ProgWord) : (s.placeAtPc v).trisa = s.trisa := rfl
@[simp] theorem State.placeAtPc_trisb (s : State) (v : ProgWord) : (s.placeAtPc v).trisb = s.trisb := rfl
@[simp] theorem State.placeAtPc_trisc (s : State) (v : ProgWord) : (s.placeAtPc v).trisc = s.trisc := rfl
@[simp] theorem State.placeAtPc_wdtcon (s : State) (v : ProgWord) : (s.placeAtPc v).wdtcon = s.wdtcon := rfl
@[simp] theorem State.placeAtPc_shadow (s : State) (v : ProgWord) : (s.placeAtPc v).shadow = s.shadow := rfl
@[simp] theorem State.placeAtPc_asleep (s : State) (v : ProgWord) : (s.placeAtPc v).asleep = s.asleep := rfl
@[simp] theorem State.placeAtPc_wake (s : State) (v : ProgWord) : (s.placeAtPc v).wake = s.wake := rfl
@[simp] theorem State.placeAtPc_wdtRunning (s : State) (v : ProgWord) : (s.placeAtPc v).wdtRunning = s.wdtRunning := rfl
@[simp] theorem State.placeAtPc_irqLine (s : State) (v : ProgWord) : (s.placeAtPc v).irqLine = s.irqLine := rfl
@[simp] theorem State.placeAtPc_ram (s : State) (v : ProgWord) : (s.placeAtPc v).ram = s.ram := rfl
@[simp] theorem State.placeAtPc_prog (s : State) (v : ProgWord) : (s.placeAtPc v).prog = progPlace s.prog (s.progIndex s.pc) v := rfl
@[simp] theorem State.placeAtPc_config (s : State) (v : ProgWord) : (s.placeAtPc v).config = s.config := rfl
@[simp] theorem State.placeAtPc_powerOns (s : State) (v : ProgWord) : (s.placeAtPc v).powerOns = s.powerOns := rfl
@[simp] theorem State.placeAtPc_sfrReads (s : State) (v : ProgWord) : (s.placeAtPc v).sfrReads = s.sfrReads := rfl
@[simp] theorem State.placeAtPc_cycles (s : State) (v : ProgWord) : (s.placeAtPc v).cycles = s.cycles := rfl
@[simp] theorem State.placeAtPc_schedule (s : State) (v : ProgWord) : (s.placeAtPc v).schedule = s.schedule := rfl

/-! ### `afterRead` -/

@[simp] theorem State.afterRead_w (s : State) (loc : Loc) : (afterRead s loc).w = s.w := by cases loc <;> rfl
@[simp] theorem State.afterRead_pc (s : State) (loc : Loc) : (afterRead s loc).pc = s.pc := by cases loc <;> rfl
@[simp] theorem State.afterRead_c (s : State) (loc : Loc) : (afterRead s loc).c = s.c := by cases loc <;> rfl
@[simp] theorem State.afterRead_dc (s : State) (loc : Loc) : (afterRead s loc).dc = s.dc := by cases loc <;> rfl
@[simp] theorem State.afterRead_z (s : State) (loc : Loc) : (afterRead s loc).z = s.z := by cases loc <;> rfl
@[simp] theorem State.afterRead_nPD (s : State) (loc : Loc) : (afterRead s loc).nPD = s.nPD := by cases loc <;> rfl
@[simp] theorem State.afterRead_nTO (s : State) (loc : Loc) : (afterRead s loc).nTO = s.nTO := by cases loc <;> rfl
@[simp] theorem State.afterRead_bsr (s : State) (loc : Loc) : (afterRead s loc).bsr = s.bsr := by cases loc <;> rfl
@[simp] theorem State.afterRead_pclath (s : State) (loc : Loc) : (afterRead s loc).pclath = s.pclath := by cases loc <;> rfl
@[simp] theorem State.afterRead_fsr0 (s : State) (loc : Loc) : (afterRead s loc).fsr0 = s.fsr0 := by cases loc <;> rfl
@[simp] theorem State.afterRead_fsr1 (s : State) (loc : Loc) : (afterRead s loc).fsr1 = s.fsr1 := by cases loc <;> rfl
@[simp] theorem State.afterRead_stkptr (s : State) (loc : Loc) : (afterRead s loc).stkptr = s.stkptr := by cases loc <;> rfl
@[simp] theorem State.afterRead_stack (s : State) (loc : Loc) : (afterRead s loc).stack = s.stack := by cases loc <;> rfl
@[simp] theorem State.afterRead_intcon (s : State) (loc : Loc) : (afterRead s loc).intcon = s.intcon := by cases loc <;> rfl
@[simp] theorem State.afterRead_pcon (s : State) (loc : Loc) : (afterRead s loc).pcon = s.pcon := by cases loc <;> rfl
@[simp] theorem State.afterRead_optionReg (s : State) (loc : Loc) : (afterRead s loc).optionReg = s.optionReg := by cases loc <;> rfl
@[simp] theorem State.afterRead_trisa (s : State) (loc : Loc) : (afterRead s loc).trisa = s.trisa := by cases loc <;> rfl
@[simp] theorem State.afterRead_trisb (s : State) (loc : Loc) : (afterRead s loc).trisb = s.trisb := by cases loc <;> rfl
@[simp] theorem State.afterRead_trisc (s : State) (loc : Loc) : (afterRead s loc).trisc = s.trisc := by cases loc <;> rfl
@[simp] theorem State.afterRead_wdtcon (s : State) (loc : Loc) : (afterRead s loc).wdtcon = s.wdtcon := by cases loc <;> rfl
@[simp] theorem State.afterRead_shadow (s : State) (loc : Loc) : (afterRead s loc).shadow = s.shadow := by cases loc <;> rfl
@[simp] theorem State.afterRead_asleep (s : State) (loc : Loc) : (afterRead s loc).asleep = s.asleep := by cases loc <;> rfl
@[simp] theorem State.afterRead_wake (s : State) (loc : Loc) : (afterRead s loc).wake = s.wake := by cases loc <;> rfl
@[simp] theorem State.afterRead_wdtRunning (s : State) (loc : Loc) : (afterRead s loc).wdtRunning = s.wdtRunning := by cases loc <;> rfl
@[simp] theorem State.afterRead_irqLine (s : State) (loc : Loc) : (afterRead s loc).irqLine = s.irqLine := by cases loc <;> rfl
@[simp] theorem State.afterRead_ram (s : State) (loc : Loc) : (afterRead s loc).ram = s.ram := by cases loc <;> rfl
@[simp] theorem State.afterRead_prog (s : State) (loc : Loc) : (afterRead s loc).prog = s.prog := by cases loc <;> rfl
@[simp] theorem State.afterRead_config (s : State) (loc : Loc) : (afterRead s loc).config = s.config := by cases loc <;> rfl
@[simp] theorem State.afterRead_powerOns (s : State) (loc : Loc) : (afterRead s loc).powerOns = s.powerOns := by cases loc <;> rfl
@[simp] theorem State.afterRead_cycles (s : State) (loc : Loc) : (afterRead s loc).cycles = s.cycles := by cases loc <;> rfl
@[simp] theorem State.afterRead_schedule (s : State) (loc : Loc) : (afterRead s loc).schedule = s.schedule := by cases loc <;> rfl

/-! ### `writeLoc`: the fields that no location names -/

@[simp] theorem writeLoc_pc (s : State) (loc : Loc) (v : Byte) (b : Bool) : (writeLoc s loc v b).pc = s.pc := by
  cases loc <;> cases b <;> rfl
@[simp] theorem writeLoc_nPD (s : State) (loc : Loc) (v : Byte) (b : Bool) : (writeLoc s loc v b).nPD = s.nPD := by
  cases loc <;> cases b <;> rfl
@[simp] theorem writeLoc_nTO (s : State) (loc : Loc) (v : Byte) (b : Bool) : (writeLoc s loc v b).nTO = s.nTO := by
  cases loc <;> cases b <;> rfl
@[simp] theorem writeLoc_asleep (s : State) (loc : Loc) (v : Byte) (b : Bool) : (writeLoc s loc v b).asleep = s.asleep := by
  cases loc <;> cases b <;> rfl
@[simp] theorem writeLoc_wake (s : State) (loc : Loc) (v : Byte) (b : Bool) : (writeLoc s loc v b).wake = s.wake := by
  cases loc <;> cases b <;> rfl
@[simp] theorem writeLoc_wdtRunning (s : State) (loc : Loc) (v : Byte) (b : Bool) : (writeLoc s loc v b).wdtRunning = s.wdtRunning := by
  cases loc <;> cases b <;> rfl
@[simp] theorem writeLoc_irqLine (s : State) (loc : Loc) (v : Byte) (b : Bool) : (writeLoc s loc v b).irqLine = s.irqLine := by
  cases loc <;> cases b <;> rfl
@[simp] theorem writeLoc_prog (s : State) (loc : Loc) (v : Byte) (b : Bool) : (writeLoc s loc v b).prog = s.prog := by
  cases loc <;> cases b <;> rfl
@[simp] theorem writeLoc_config (s : State) (loc : Loc) (v : Byte) (b : Bool) : (writeLoc s loc v b).config = s.config := by
  cases loc <;> cases b <;> rfl
@[simp] theorem writeLoc_powerOns (s : State) (loc : Loc) (v : Byte) (b : Bool) : (writeLoc s loc v b).powerOns = s.powerOns := by
  cases loc <;> cases b <;> rfl
@[simp] theorem writeLoc_sfrReads (s : State) (loc : Loc) (v : Byte) (b : Bool) : (writeLoc s loc v b).sfrReads = s.sfrReads := by
  cases loc <;> cases b <;> rfl
@[simp] theorem writeLoc_cycles (s : State) (loc : Loc) (v : Byte) (b : Bool) : (writeLoc s loc v b).cycles = s.cycles := by
  cases loc <;> cases b <;> rfl
@[simp] theorem writeLoc_schedule (s : State) (loc : Loc) (v : Byte) (b : Bool) : (writeLoc s loc v b).schedule = s.schedule := by
  cases loc <;> cases b <;> rfl

end Sys2Proof.Machine
end

