-- ==== Sys2Proof/Laws/Ops.lean ====
section
/-! SUPPORT. One lemma for each shared operation, which says once everything it can do. -/

namespace Sys2Proof.Machine

/-! ### The return stack -/

/-- The entry that STKPTR selects. -/
theorem stackEntry_eq (s : State) (p : BitVec 5) : s.stackEntry p = entryAt s p.toNat := rfl

/-- Writing one entry changes that entry alone. -/
theorem setStackEntry_stackSet (s : State) (p : BitVec 5) (v : PC) : StackSet s (s.setStackEntry p v) p.toNat v := by
  constructor
  · simp [entryAt, State.setStackEntry, stackSlot]
  · intro j hj
    have : p.toNat % 16 ≠ j % 16 := fun h => hj h.symm
    simp [entryAt, State.setStackEntry, stackSlot, this]

/-- Entries are a matter of the stack alone. -/
theorem entryAt_congr {s t : State} (h : s.stack = t.stack) (i : Nat) : entryAt s i = entryAt t i := by
  simp [entryAt, h]

/-- The index counts modulo 16. -/
theorem entryAt_mod (s : State) {i j : Nat} (h : i % 16 = j % 16) : entryAt s i = entryAt s j := by
  simp [entryAt, h]

/-- `StackSet` is a matter of the stacks alone. -/
theorem StackSet.congr {s s' t t' : State} {i : Nat} {v : PC} (h : StackSet s t i v) (hs : s'.stack = s.stack)
    (ht : t'.stack = t.stack) : StackSet s' t' i v :=
  ⟨(entryAt_congr ht i).trans h.1, fun j hj => by rw [entryAt_congr ht, entryAt_congr hs, h.2 j hj]⟩

/-- `StackSet` counts entries modulo 16. -/
theorem StackSet.mod {s t : State} {i j : Nat} {v : PC} (h : StackSet s t i v) (hij : i % 16 = j % 16) :
    StackSet s t j v :=
  ⟨(entryAt_mod t hij.symm).trans h.1, fun k hk => h.2 k (by omega)⟩

/-! ### Writing a location -/

theorem pair_low_eq (x : FsrAddr) (v : Byte) :
    x.extractLsb' 8 8 ++ v = BitVec.ofNat 16 (x.toNat / 256 * 256 + v.toNat) := by
  apply BitVec.eq_of_toNat_eq
  rw [toNat_append_fields, toNat_field, BitVec.toNat_ofNat]
  have := x.isLt
  omega

theorem pair_high_eq (x : FsrAddr) (v : Byte) :
    v ++ x.extractLsb' 0 8 = BitVec.ofNat 16 (v.toNat * 256 + x.toNat % 256) := by
  apply BitVec.eq_of_toNat_eq
  rw [toNat_append_fields, toNat_field, BitVec.toNat_ofNat]
  omega

theorem entry_low_eq (x : PC) (v : Byte) :
    x.extractLsb' 8 7 ++ v = BitVec.ofNat 15 (x.toNat / 256 * 256 + v.toNat) := by
  apply BitVec.eq_of_toNat_eq
  rw [toNat_append_fields, toNat_field, BitVec.toNat_ofNat]
  have := x.isLt
  omega

theorem entry_high_eq (x : PC) (v : Byte) :
    v.setWidth 7 ++ x.extractLsb' 0 8 = BitVec.ofNat 15 (v.toNat % 128 * 256 + x.toNat % 256) := by
  apply BitVec.eq_of_toNat_eq
  rw [toNat_append_fields, toNat_field, BitVec.toNat_ofNat, BitVec.toNat_setWidth]
  omega

theorem setWidth_eq_mod (v : Byte) (n : Nat) (k : Nat) (h : k = 2 ^ n) : v.setWidth n = BitVec.ofNat n (v.toNat % k) := by
  apply BitVec.eq_of_toNat_eq
  rw [BitVec.toNat_setWidth, BitVec.toNat_ofNat, h, Nat.mod_mod]

theorem intcon_write_eq (x v : Byte) :
    v.extractLsb' 1 7 ++ x.extractLsb' 0 1 = BitVec.ofNat 8 (v.toNat / 2 * 2 + x.toNat % 2) := by
  apply BitVec.eq_of_toNat_eq
  rw [toNat_append_fields, toNat_field, toNat_field, BitVec.toNat_ofNat]
  omega

theorem trisa_write_eq : ∀ v : Byte, (v &&& trisaWritable) ||| trisaFixedOnes
    = BitVec.ofNat 8 (v.toNat % 8 + 8 + v.toNat / 16 % 4 * 16) := by decide

theorem trisb_write_eq : ∀ v : Byte, v &&& trisbWritable = BitVec.ofNat 8 (v.toNat / 16 * 16) := by decide

theorem wdtcon_write_eq : ∀ v : Byte, v &&& wdtconWritable = BitVec.ofNat 8 (v.toNat % 64) := by decide

/-- A write to a location does what `Written` says, and nothing else. -/
theorem writeLoc_written (s : State) (loc : Loc) (v : Byte) (affects : Bool) :
    Written s loc v affects (writeLoc s loc v affects) := by
  cases loc with
  | status => simp only [Written, writeLoc, bitOf_eq_getLsbD]
  | fsr0l => exact congrArg (fun x => { s with fsr0 := x }) (pair_low_eq _ _)
  | fsr0h => exact congrArg (fun x => { s with fsr0 := x }) (pair_high_eq _ _)
  | fsr1l => exact congrArg (fun x => { s with fsr1 := x }) (pair_low_eq _ _)
  | fsr1h => exact congrArg (fun x => { s with fsr1 := x }) (pair_high_eq _ _)
  | bsr => exact congrArg (fun x => { s with bsr := x }) (setWidth_eq_mod v 5 32 rfl)
  | pclath => exact congrArg (fun x => { s with pclath := x }) (setWidth_eq_mod v 7 128 rfl)
  | intcon => exact congrArg (fun x => { s with intcon := x }) (intcon_write_eq _ _)
  | trisa => exact congrArg (fun x => { s with trisa := x }) (trisa_write_eq v)
  | trisb => exact congrArg (fun x => { s with trisb := x }) (trisb_write_eq v)
  | wdtcon => exact congrArg (fun x => { s with wdtcon := x }) (wdtcon_write_eq v)
  | pcon => simp only [Written, writeLoc, bitOf_eq_getLsbD, Pcon.ofByte]
  | statusShad =>
    exact congrArg (fun x => { s with shadow := { s.shadow with status := x } }) (setWidth_eq_mod v 3 8 rfl)
  | bsrShad => exact congrArg (fun x => { s with shadow := { s.shadow with bsr := x } }) (setWidth_eq_mod v 5 32 rfl)
  | pclathShad =>
    exact congrArg (fun x => { s with shadow := { s.shadow with pclath := x } }) (setWidth_eq_mod v 7 128 rfl)
  | stkptr => exact congrArg (fun x => { s with stkptr := x }) (setWidth_eq_mod v 5 32 rfl)
  | tosl => exact ⟨rfl, entry_low_eq _ v ▸ setStackEntry_stackSet s s.stkptr _⟩
  | tosh => exact ⟨rfl, entry_high_eq _ v ▸ setStackEntry_stackSet s s.stkptr _⟩
  | ram a => exact ⟨rfl, ramByte_setRam_same s a v, fun b hb => ramByte_setRam_other s v hb⟩
  | pcl | platform _ | prog _ | void | wreg | trisc | optionReg | wregShad | fsr0lShad | fsr0hShad | fsr1lShad
  | fsr1hShad => rfl

/-- The numbers of Note 2. -/
theorem note2_eq (loc : Loc) : loc.note2 = note2Cycles loc := by cases loc <;> rfl

/-- A read changes the count of platform reads alone. -/
theorem afterRead_eq (s : State) (loc : Loc) : afterRead s loc = withRead s loc := by cases loc <;> rfl

/-- The target of a write to PCL. -/
theorem pclTarget_eq (s : State) (v : Byte) : s.pclath ++ v = pclTarget s v := by
  apply BitVec.eq_of_toNat_eq
  rw [toNat_append_fields, pclTarget, BitVec.toNat_ofNat]
  have := s.pclath.isLt
  have := v.isLt
  omega

/-- `store` writes the location and moves the PC as `Stored` says. -/
theorem store_stored (s : State) (loc : Loc) (v : Byte) (affects : Bool) :
    Stored s loc v affects (s.store loc v affects) := by
  refine ⟨writeLoc s loc v affects, writeLoc_written s loc v affects, ?_⟩
  unfold State.store State.continueAfterWrite State.continueAt
  by_cases h : loc = .pcl
  · subst h
    simp [writeLoc, pclTarget_eq]
  · simp [h, note2_eq]

/-- `deliver` puts the result where `d` says; the flags were written before it. -/
theorem deliver_fileResult (s : State) (d : Dest) (loc : Loc) (r : AluResult) :
    FileResult s d loc r.value (r.c.getD s.c) (r.dc.getD s.dc) (r.z.getD s.z) r.affects
      (((afterRead s loc).applyFlags r).deliver d loc r) := by
  have hs : (afterRead s loc).applyFlags r
      = withFlags (withRead s loc) (r.c.getD s.c) (r.dc.getD s.dc) (r.z.getD s.z) := by rw [afterRead_eq]; rfl
  rw [hs]
  cases d with
  | w => simp [FileResult, State.deliver, State.continueAt, withFlags, withRead, note2_eq, Nat.add_assoc]
  | f => exact store_stored _ loc r.value r.affects

/-- The template of the byte-oriented instructions: with a readable operand it answers, as `FileResult` says. -/
theorem byteOp_ok {s : State} {f : FileAddr} {loc : Loc} (d : Dest) (op : Byte → AluResult)
    (h : locateFile s f = .ok loc) :
    ∃ t, byteOp s f d op = .next t ∧
      FileResult s d loc (op (readLoc s loc)).value ((op (readLoc s loc)).c.getD s.c) ((op (readLoc s loc)).dc.getD s.dc)
        ((op (readLoc s loc)).z.getD s.z) (op (readLoc s loc)).affects t := by
  refine ⟨_, ?_, deliver_fileResult s d loc _⟩
  simp only [byteOp, h]

/-- The template of CLRF and MOVWF: with an operand that is a location it answers, as `Stored` says. -/
theorem fileStore_ok {s : State} {f : FileAddr} {loc : Loc} (r : AluResult) (h : locateFile s f = .ok loc) :
    ∃ t, fileStore s f r = .next t ∧
      Stored (withFlags s (r.c.getD s.c) (r.dc.getD s.dc) (r.z.getD s.z)) loc r.value r.affects t := by
  refine ⟨_, ?_, store_stored _ loc r.value r.affects⟩
  simp only [fileStore, h]
  rfl

/-- The PC and the cycles of a skip instruction. -/
theorem skipIf_skipped (u : State) (skip : Bool) (loc : Loc) : u.skipIf skip loc = skipped u u loc skip := by
  cases skip <;> simp [State.skipIf, skipped, State.continueAt, note2_eq, Nat.add_assoc]

/-- The template of DECFSZ and INCFSZ: to W; to a register other than PCL; to PCL. -/
theorem byteSkip_ok {s : State} {f : FileAddr} {loc : Loc} (op : Byte → Byte) (h : locateFile s f = .ok loc) :
    byteSkip s f .w op = .next (skipped s { withRead s loc with w := op (readLoc s loc) } loc (isZero (op (readLoc s loc))))
    ∧ (loc ≠ .pcl → ∃ u, Written (withRead s loc) loc (op (readLoc s loc)) false u ∧
        byteSkip s f .f op = .next (skipped s u loc (isZero (op (readLoc s loc)))))
    ∧ (loc = .pcl → byteSkip s f .f op = .refused .skipOnPCL) := by
  refine ⟨?_, fun hp => ⟨_, writeLoc_written (withRead s loc) loc _ false, ?_⟩, fun hp => ?_⟩
  · simp only [byteSkip, h, skipIf_skipped, afterRead_eq]
    rfl
  · simp only [byteSkip, h, hp, skipIf_skipped, afterRead_eq, if_false]
    simp [skipped, withRead]
  · simp only [byteSkip, h, hp, if_true]

/-- The template of BTFSC and BTFSS. -/
theorem bitSkip_ok {s : State} {f : FileAddr} {loc : Loc} (b : BitVec 3) (v : Bool) (h : locateFile s f = .ok loc) :
    bitSkip s f b v = .next (skipped s (withRead s loc) loc (bitOf (readLoc s loc) b.toNat == v)) := by
  simp only [bitSkip, h, skipIf_skipped, afterRead_eq, bitOf_eq_getLsbD]
  rfl

/-- The template of the literal instructions. -/
theorem literalOp_eq (s : State) (r : AluResult) :
    literalOp s r = .next (literalResult s r.value (r.c.getD s.c) (r.dc.getD s.dc) (r.z.getD s.z)) := rfl

/-- An operand that is no location is refused, in every template. -/
theorem templates_refuse {s : State} {f : FileAddr} {r : Refusal} (h : locateFile s f = .error r) :
    (∀ d op, byteOp s f d op = .refused r) ∧ (∀ a, fileStore s f a = .refused r)
      ∧ (∀ d op, byteSkip s f d op = .refused r) ∧ ∀ b v, bitSkip s f b v = .refused r := by
  simp [byteOp, fileStore, byteSkip, bitSkip, h]

/-- The templates refuse for nothing else, but for a skip whose destination is PCL. -/
theorem templates_refused {s : State} {f : FileAddr} {r : Refusal} :
    (∀ d op, byteOp s f d op = .refused r ↔ locateFile s f = .error r)
      ∧ (∀ a, fileStore s f a = .refused r ↔ locateFile s f = .error r)
      ∧ (∀ op, byteSkip s f .w op = .refused r ↔ locateFile s f = .error r)
      ∧ (∀ op, byteSkip s f .f op = .refused r ↔
          locateFile s f = .error r ∨ (locateFile s f = .ok .pcl ∧ r = .skipOnPCL))
      ∧ ∀ b v, bitSkip s f b v = .refused r ↔ locateFile s f = .error r := by
  unfold byteOp fileStore byteSkip bitSkip
  cases h : locateFile s f with
  | error e => simp
  | ok loc =>
    refine ⟨by simp, by simp, by simp, fun op => ?_, by simp⟩
    by_cases hp : loc = .pcl
    · simp [hp, eq_comm]
    · simp [hp]

/-! ### Arithmetic -/

/-- `Add8` in numbers. -/
theorem add8_eq (x y : Byte) (cin : Bool) :
    add8 x y cin = { value := BitVec.ofNat 8 (x.toNat + y.toNat + cin.toNat)
                     c := some (decide (256 ≤ x.toNat + y.toNat + cin.toNat))
                     dc := some (decide (16 ≤ x.toNat % 16 + y.toNat % 16 + cin.toNat))
                     z := some (decide ((x.toNat + y.toNat + cin.toNat) % 256 = 0)) } := by
  have hx := x.isLt
  have hy := y.isLt
  have hc := bool_toNat_le cin
  have hs : (x.setWidth 9 + y.setWidth 9 + (carryBit cin).setWidth 9 : BitVec 9).toNat
      = x.toNat + y.toNat + cin.toNat := by
    simp only [BitVec.toNat_add, BitVec.toNat_setWidth, toNat_carryBit]
    omega
  have hh : ((x.setWidth 4).setWidth 5 + (y.setWidth 4).setWidth 5 + (carryBit cin).setWidth 5 : BitVec 5).toNat
      = x.toNat % 16 + y.toNat % 16 + cin.toNat := by
    simp only [BitVec.toNat_add, BitVec.toNat_setWidth, toNat_carryBit]
    omega
  have hv : (x.setWidth 9 + y.setWidth 9 + (carryBit cin).setWidth 9 : BitVec 9).setWidth 8
      = BitVec.ofNat 8 (x.toNat + y.toNat + cin.toNat) := by
    apply BitVec.eq_of_toNat_eq
    rw [BitVec.toNat_setWidth, hs, BitVec.toNat_ofNat]
  unfold add8
  simp only [hv]
  congr 2
  · rw [BitVec.getLsbD, hs, Nat.testBit_eq_decide_div_mod_eq]
    apply decide_eq_decide.mpr
    omega
  · rw [BitVec.getLsbD, hh, Nat.testBit_eq_decide_div_mod_eq]
    apply decide_eq_decide.mpr
    omega
  · rw [isZero]
    apply Bool.eq_iff_iff.mpr
    rw [beq_iff_eq, decide_eq_true_iff]
    constructor
    · intro h
      simpa using congrArg BitVec.toNat h
    · intro h
      apply BitVec.eq_of_toNat_eq
      simpa using h

/-- Subtraction by the 2's complement method, in numbers: C and DC say "no borrow". -/
theorem subb8_eq (x y : Byte) (c : Bool) :
    subb8 x y c = { value := BitVec.ofInt 8 ((x.toNat : Int) - y.toNat - (1 - c.toNat : Nat))
                    c := some (decide (y.toNat + (1 - c.toNat) ≤ x.toNat))
                    dc := some (decide (y.toNat % 16 + (1 - c.toNat) ≤ x.toNat % 16))
                    z := some (decide (((x.toNat : Int) - y.toNat - (1 - c.toNat : Nat)) % 256 = 0)) } := by
  have hx := x.isLt
  have hy := y.isLt
  have hc := bool_toNat_le c
  have hn : (~~~y).toNat = 255 - y.toNat := by
    rw [BitVec.toNat_not]
  unfold subb8
  rw [add8_eq, hn]
  congr 2
  · apply BitVec.eq_of_toNat_eq
    rw [BitVec.toNat_ofNat, BitVec.toNat_ofInt]
    omega
  · apply decide_eq_decide.mpr
    omega
  · apply decide_eq_decide.mpr
    omega
  · apply decide_eq_decide.mpr
    omega

/-! ### The stack's operations -/

/-- A push on a stack with room. -/
theorem push_ok {s : State} (v : PC) (h : s.stkptr ≠ stkptrFull) :
    ∃ t, push s v = .done t ∧ t = { s with stkptr := s.stkptr + 1, stack := t.stack }
      ∧ StackSet s t (s.stkptr.toNat + 1) v := by
  refine ⟨_, by simp only [push, h, if_false]; rfl, rfl, ?_⟩
  refine ((setStackEntry_stackSet { s with stkptr := s.stkptr + 1 } (s.stkptr + 1) v).congr rfl rfl).mod ?_
  rw [BitVec.toNat_add]
  simp

/-- A push on a full stack. -/
theorem push_full {s : State} (v : PC) (h : s.stkptr = stkptrFull) :
    push s v = .stop (stackTrouble .stackOverflow s) := by simp only [push, h, if_true]

/-- A pop of a stack that is not empty. -/
theorem pop_ok {s : State} (h : s.stkptr ≠ stkptrEmpty) :
    pop s = .done (entryAt s s.stkptr.toNat, { s with stkptr := s.stkptr - 1 }) := by
  simp only [pop, h, if_false, stackEntry_eq]

/-- A pop of an empty stack. -/
theorem pop_empty {s : State} (h : s.stkptr = stkptrEmpty) : pop s = .stop (stackTrouble .stackUnderflow s) := by
  simp only [pop, h, if_true]

/-! ### Resets -/

theorem pair_high_cleared (x : FsrAddr) : 0x00#8 ++ x.extractLsb' 0 8 = BitVec.ofNat 16 (x.toNat % 256) := by
  rw [pair_high_eq]
  simp

/-- What a reset other than power-on and brown-out leaves. -/
theorem warmReset_eq (s : State) (cause : ResetCause) :
    s.warmReset cause = { resetKeeping s with nTO := s.nToAfterReset cause, nPD := s.nPdAfterReset cause
                                              pcon := s.pcon.afterReset cause (s.powerOns + 1) } := by
  simp only [State.warmReset, resetKeeping, pair_high_cleared]
  rfl

/-- Overflow and underflow. -/
theorem stackTrouble_overflow (s : State) : stackTrouble .stackOverflow s = overflowOutcome s := by
  simp only [stackTrouble, overflowOutcome, deviceReset, warmReset_eq]
  rfl

theorem stackTrouble_underflow (s : State) : stackTrouble .stackUnderflow s = underflowOutcome s := by
  simp only [stackTrouble, underflowOutcome, deviceReset, warmReset_eq]
  rfl

/-- The template of CALL and CALLW. -/
theorem callTo_cases (s : State) (target : PC) :
    (s.stkptr ≠ 0x0F#5 → ∃ t, callTo s target = .next t ∧ StackSet s t (s.stkptr.toNat + 1) (s.pc + 1) ∧
      t = { s with pc := target, stkptr := s.stkptr + 1, stack := t.stack, cycles := s.cycles + 2 })
    ∧ (s.stkptr = 0x0F#5 → callTo s target = overflowOutcome s) := by
  constructor
  · intro h
    obtain ⟨t, ht, he, hs⟩ := push_ok (s := s) (s.pc + 1) h
    refine ⟨t.continueAt target 2, by simp only [callTo, ht], hs.congr rfl rfl, ?_⟩
    rw [he]
    rfl
  · intro h
    simp only [callTo, push_full (s := s) (s.pc + 1) h, stackTrouble_overflow]

/-- The template of the returns. -/
theorem returnWith_cases (s : State) (effect : State → State) :
    (s.stkptr ≠ 0x1F#5 → returnWith s effect
      = .next ((effect { s with stkptr := s.stkptr - 1 }).continueAt (entryAt s s.stkptr.toNat) 2))
    ∧ (s.stkptr = 0x1F#5 → returnWith s effect = underflowOutcome s) := by
  constructor
  · intro h
    simp only [returnWith, pop_ok (s := s) h]
  · intro h
    simp only [returnWith, pop_empty (s := s) h, stackTrouble_underflow]

/-- A push or a pop is refused exactly on overflow or underflow with STVREN = 0. -/
theorem stack_refused {s : State} {r : Refusal} :
    (∀ p, callTo s p = .refused r ↔ r = .stackWrap ∧ s.config.stvren = false ∧ s.stkptr = 0x0F#5)
      ∧ ∀ effect, returnWith s effect = .refused r ↔ r = .stackWrap ∧ s.config.stvren = false ∧ s.stkptr = 0x1F#5 := by
  refine ⟨fun p => ?_, fun effect => ?_⟩
  · by_cases h : s.stkptr = 0x0F#5
    · rw [(callTo_cases s p).2 h, overflowOutcome]
      cases s.config.stvren <;> simp [h, eq_comm]
    · obtain ⟨t, ht, _⟩ := (callTo_cases s p).1 h
      simp [ht, h]
  · by_cases h : s.stkptr = 0x1F#5
    · rw [(returnWith_cases s effect).2 h, underflowOutcome]
      cases s.config.stvren <;> simp [h, eq_comm]
    · rw [(returnWith_cases s effect).1 h]
      simp [h]

/-! ### Interrupts -/

/-- The context that entry saves, in numbers. -/
theorem context_eq (s : State) : s.context = savedContext s := by
  unfold State.context savedContext
  congr 1
  · cases s.z <;> cases s.dc <;> cases s.c <;> rfl
  · apply BitVec.eq_of_toNat_eq
    rw [toNat_field, BitVec.toNat_ofNat]
    simp
  · apply BitVec.eq_of_toNat_eq
    rw [toNat_field, BitVec.toNat_ofNat]
    rfl
  · apply BitVec.eq_of_toNat_eq
    rw [toNat_field, BitVec.toNat_ofNat]
    simp
  · apply BitVec.eq_of_toNat_eq
    rw [toNat_field, BitVec.toNat_ofNat]
    rfl

/-- Interrupt entry: with room on the stack, and with a full stack. -/
theorem interruptEntry_cases (s : State) :
    (s.stkptr ≠ 0x0F#5 → ∃ t, interruptEntry s = .next t ∧ EntersInterrupt s t)
    ∧ (s.stkptr = 0x0F#5 → interruptEntry s = overflowOutcome s) := by
  constructor
  · intro h
    obtain ⟨t, ht, he, hs⟩ := push_ok (s := s.setGie false) s.pc h
    refine ⟨{ t with shadow := s.context, pc := intVector, wake := .settled }, by simp only [interruptEntry, ht], ?_,
      hs.congr rfl rfl⟩
    rw [he, context_eq]
    have := setGie_intcon_eq s false
    simp only [State.setGie, Bool.toNat_false, Nat.zero_mul, Nat.add_zero] at this
    simp only [State.setGie, this]
    rfl
  · intro h
    simp only [interruptEntry, push_full (s := s.setGie false) s.pc h, stackTrouble_overflow]
    rfl

/-- Interrupt entry is refused exactly on a full stack with STVREN = 0. -/
theorem interruptEntry_refused {s : State} {r : Refusal} :
    interruptEntry s = .refused r ↔ r = .stackWrap ∧ s.config.stvren = false ∧ s.stkptr = 0x0F#5 := by
  by_cases h : s.stkptr = 0x0F#5
  · rw [(interruptEntry_cases s).2 h, overflowOutcome]
    cases s.config.stvren <;> simp [h, eq_comm]
  · obtain ⟨t, ht, _⟩ := (interruptEntry_cases s).1 h
    simp [ht, h]

/-! ### Turns -/

/-- The step is the turn of the agent whose turn it is. -/
theorem step_of_turn {s s' : State} {a : Turn} (h : TurnOf s a s') : step s = takeTurn a s' := by
  rcases h with ⟨hs, rfl, rfl⟩ | ⟨rest, hs, rfl⟩
  · simp only [step, machineStep, hs, takeTurn]
  · simp only [step, machineStep, hs]

/-- It is somebody's turn in every state. -/
theorem turn_exists (s : State) : ∃ a s', TurnOf s a s' := by
  cases h : s.schedule with
  | nil => exact ⟨.cpu, s, .inl ⟨h, rfl, rfl⟩⟩
  | cons a rest => exact ⟨a, { s with schedule := rest }, .inr ⟨rest, h, rfl⟩⟩

/-- The CPU's step, by cases: wait or wake, interrupt entry, an instruction, the instruction after SLEEP, the entry that
is due after it. -/
theorem cpuStep_cases (s : State) :
    (s.asleep = true ∧ cpuStep s = .next s.wakeUp)
    ∨ (s.asleep = false ∧ s.wake = .settled ∧ s.interruptRequest = true ∧ cpuStep s = interruptEntry s)
    ∨ (s.asleep = false ∧ s.wake = .settled ∧ s.interruptRequest = false ∧ cpuStep s = runInstruction s)
    ∨ (s.asleep = false ∧ s.wake = .resumeFirst ∧ cpuStep s = runInstruction { s with wake := .entryDue })
    ∨ (s.asleep = false ∧ s.wake = .entryDue ∧ cpuStep s = interruptEntry s) := by
  unfold cpuStep
  cases ha : s.asleep <;> cases hw : s.wake <;> cases hr : s.interruptRequest <;> simp

/-- On its turn the CPU sleeps, enters the interrupt, or fetches. -/
theorem cpu_turn {s s' : State} (h : TurnOf s .cpu s') : s'.asleep = true ∨ EntersNow s s' ∨ Fetches s s' := by
  unfold EntersNow Fetches
  cases s'.asleep <;> cases s'.wake <;> cases gieBit s' && pendingFlags s' <;> simp [h]

/-- A CPU that enters the interrupt does nothing else in that step. -/
theorem step_of_entersNow {s s' : State} (h : EntersNow s s') : step s = interruptEntry s' := by
  obtain ⟨ht, ha, hw | ⟨hw, hp⟩⟩ := h
  · rw [step_of_turn ht]
    simp [takeTurn, cpuStep, ha, hw]
  · rw [step_of_turn ht]
    simp [takeTurn, cpuStep, ha, hw, interruptRequest_eq, hp]

/-- The state in which a CPU that fetches performs the instruction: after a wake-up, interrupt entry is then due. -/
def State.fetching (s : State) : State := if s.wake = .resumeFirst then { s with wake := .entryDue } else s

/-- It differs from the state in that stage alone. -/
theorem State.fetching_eq (s : State) : s.fetching = { s with wake := s.fetching.wake } := by
  unfold State.fetching
  split <;> rfl

/-- A CPU that fetches runs the instruction at its PC. -/
theorem step_of_fetches {s s' : State} (h : Fetches s s') : step s = runInstruction s'.fetching := by
  obtain ⟨ht, ha, hw | ⟨hw, hp⟩⟩ := h
  · rw [step_of_turn ht]
    simp [takeTurn, cpuStep, ha, hw, State.fetching]
  · rw [step_of_turn ht]
    simp [takeTurn, cpuStep, ha, hw, interruptRequest_eq, hp, State.fetching]

/-- A CPU that runs `i` performs its meaning. -/
theorem step_of_runs {s s' : State} {i : Instr} (h : Runs s s' i) : step s = exec i s'.fetching := by
  rw [step_of_fetches h.1]
  have hp : s'.fetching.progRead s'.fetching.pc = s'.progRead s'.pc := by
    rw [State.fetching_eq]
    rfl
  simp only [runInstruction, hp, h.2]

end Sys2Proof.Machine
end

