-- ==== Sys2Proof/Laws/Exec.lean ====
section
/-! SUPPORT. What an instruction can do to a state, as an induction principle: a property that every primitive update of the
state keeps is kept by every instruction. -/

namespace Sys2Proof.Machine

/-- The property is kept by every primitive update that the instructions other than CLRWDT and SLEEP are made of. -/
structure KeptByUpdates (P : State → Prop) : Prop where
  /-- The core's registers other than INTCON and the stack, and the counters. -/
  registers : ∀ (s : State) (w : Byte) (c dc z : Bool) (bsr : BitVec 5) (pclath : BitVec 7) (fsr0 fsr1 : FsrAddr) (pc : PC)
    (cycles sfrReads : Nat), P s →
    P { s with w := w, c := c, dc := dc, z := z, bsr := bsr, pclath := pclath, fsr0 := fsr0, fsr1 := fsr1, pc := pc
               cycles := cycles, sfrReads := sfrReads }
  /-- A write to a location; a byte of RAM is an implemented one. -/
  write : ∀ (s : State) (loc : Loc) (v : Byte) (affects : Bool),
    (∀ a, loc = .ram a → ramAddress s.config.device a = true) → P s → P (writeLoc s loc v affects)
  /-- A push or a pop. -/
  stack : ∀ (s : State) (p : BitVec 5) (entries : Vector PC 16), P s → P { s with stkptr := p, stack := entries }
  /-- GIE. -/
  gie : ∀ (s : State) (b : Bool), P s → P (s.setGie b)

/-- The property is kept by the resets that instructions make. -/
def KeptByResets (P : State → Prop) : Prop := ∀ (s : State) (cause : ResetCause),
  cause = .resetInstruction ∨ cause = .stackOverflow ∨ cause = .stackUnderflow → P s → P (s.warmReset cause)

/-- The instructions that reset the device, always or when the stack is full or empty. -/
def mayReset : Instr → Bool
  | .reset | .call _ | .callw | .ret | .retlw _ | .retfie => true
  | _ => false

namespace KeptByUpdates

variable {P : State → Prop} (hk : KeptByUpdates P) {s t : State}

include hk

theorem read (loc : Loc) (hs : P s) : P (afterRead s loc) := by
  rw [afterRead_eq]
  exact hk.registers s s.w s.c s.dc s.z s.bsr s.pclath s.fsr0 s.fsr1 s.pc s.cycles _ hs

theorem flags (r : AluResult) (hs : P s) : P (s.applyFlags r) :=
  hk.registers s s.w _ _ _ s.bsr s.pclath s.fsr0 s.fsr1 s.pc s.cycles s.sfrReads hs

theorem move (p : PC) (n : Nat) (hs : P s) : P (s.continueAt p n) :=
  hk.registers s s.w s.c s.dc s.z s.bsr s.pclath s.fsr0 s.fsr1 p _ s.sfrReads hs

theorem setW (w : Byte) (hs : P s) : P { s with w := w } :=
  hk.registers s w s.c s.dc s.z s.bsr s.pclath s.fsr0 s.fsr1 s.pc s.cycles s.sfrReads hs

theorem pointer (n : FsrSel) (v : FsrAddr) (hs : P s) : P (s.setFsr n v) := by
  cases n
  · exact hk.registers s s.w s.c s.dc s.z s.bsr s.pclath v s.fsr1 s.pc s.cycles s.sfrReads hs
  · exact hk.registers s s.w s.c s.dc s.z s.bsr s.pclath s.fsr0 v s.pc s.cycles s.sfrReads hs

theorem afterWrite (loc : Loc) (v : Byte) (hs : P s) : P (s.continueAfterWrite loc v) := by
  unfold State.continueAfterWrite
  split <;> exact hk.move _ _ hs

theorem store {loc : Loc} (v : Byte) (affects : Bool) (hl : ∀ a, loc = .ram a → ramAddress s.config.device a = true)
    (hs : P s) : P (s.store loc v affects) := hk.afterWrite loc v (hk.write s loc v affects hl hs)

theorem skip (b : Bool) (loc : Loc) (hs : P s) : P (s.skipIf b loc) := by
  unfold State.skipIf
  split <;> exact hk.move _ _ hs

theorem byteOp {f : FileAddr} {d : Dest} {op : Byte → AluResult} (h : byteOp s f d op = .next t) (hs : P s) : P t := by
  unfold Machine.byteOp at h
  split at h
  · simp at h
  · rename_i loc hl
    injection h with h
    subst h
    have h1 := hk.flags (op (readLoc s loc)) (hk.read loc hs)
    cases d
    · exact hk.move _ _ (hk.setW _ h1)
    · refine hk.store _ _ (fun a ha => ?_) h1
      subst ha
      exact locateFile_ram hl

theorem fileStore {f : FileAddr} {r : AluResult} (h : fileStore s f r = .next t) (hs : P s) : P t := by
  unfold Machine.fileStore at h
  split at h
  · simp at h
  · rename_i loc hl
    injection h with h
    subst h
    refine hk.store _ _ (fun a ha => ?_) (hk.flags r hs)
    subst ha
    exact locateFile_ram hl

theorem byteSkip {f : FileAddr} {d : Dest} {op : Byte → Byte} (h : byteSkip s f d op = .next t) (hs : P s) : P t := by
  unfold Machine.byteSkip at h
  split at h
  · simp at h
  · rename_i loc hl
    have h1 := hk.read loc hs
    cases d
    · injection h with h
      subst h
      exact hk.skip _ _ (hk.setW _ h1)
    · simp only [] at h
      split at h
      · simp at h
      · injection h with h
        subst h
        refine hk.skip _ _ (hk.write _ _ _ _ (fun a ha => ?_) h1)
        subst ha
        exact locateFile_ram hl

theorem bitSkip {f : FileAddr} {b : BitVec 3} {v : Bool} (h : bitSkip s f b v = .next t) (hs : P s) : P t := by
  unfold Machine.bitSkip at h
  split at h
  · simp at h
  · injection h with h
    subst h
    exact hk.skip _ _ (hk.read _ hs)

theorem literalOp {r : AluResult} (h : literalOp s r = .next t) (hs : P s) : P t := by
  injection h with h
  subst h
  exact hk.move _ _ (hk.setW _ (hk.flags r hs))

omit hk in
theorem trouble (hr : KeptByResets P) {cause : ResetCause} (hc : cause = .stackOverflow ∨ cause = .stackUnderflow)
    (h : stackTrouble cause s = .next t) (hs : P s) : P t := by
  unfold stackTrouble at h
  split at h
  · injection h with h
    subst h
    rcases hc with rfl | rfl
    · exact hr s .stackOverflow (by simp) hs
    · exact hr s .stackUnderflow (by simp) hs
  · simp at h

theorem callTo (hr : KeptByResets P) {p : PC} (h : callTo s p = .next t) (hs : P s) : P t := by
  unfold Machine.callTo push at h
  by_cases hf : s.stkptr = stkptrFull
  · simp only [hf, if_true] at h
    exact trouble hr (.inl rfl) h hs
  · simp only [hf, if_false] at h
    injection h with h
    subst h
    exact hk.move _ _ (hk.stack s _ _ hs)

theorem returnWith (hr : KeptByResets P) {effect : State → State} (h : returnWith s effect = .next t) (hs : P s)
    (he : ∀ u, P u → P (effect u)) : P t := by
  unfold Machine.returnWith pop at h
  by_cases hf : s.stkptr = stkptrEmpty
  · simp only [hf, if_true] at h
    exact trouble hr (.inr rfl) h hs
  · simp only [hf, if_false] at h
    injection h with h
    subst h
    exact hk.move _ _ (he _ (hk.stack s _ s.stack hs))

theorem moviw {n : FsrSel} {mm : PtrMode} (h : execMoviwMod n mm s = .next t) (hs : P s) : P t := by
  unfold execMoviwMod at h
  split at h
  · simp at h
  · rename_i loc hl
    injection h with h
    subst h
    have load : ∀ u, P u → P (u.loadW loc) := by
      intro u hu
      have h1 := hk.read loc hu
      exact hk.registers _ _ (afterRead u loc).c (afterRead u loc).dc _ (afterRead u loc).bsr (afterRead u loc).pclath
        (afterRead u loc).fsr0 (afterRead u loc).fsr1 (afterRead u loc).pc (afterRead u loc).cycles
        (afterRead u loc).sfrReads h1
    refine hk.move _ _ ?_
    cases mm
    · exact load _ (hk.pointer _ _ hs)
    · exact load _ (hk.pointer _ _ hs)
    · exact hk.pointer _ _ (load _ hs)
    · exact hk.pointer _ _ (load _ hs)

theorem movwi {n : FsrSel} {mm : PtrMode} (h : execMovwiMod n mm s = .next t) (hs : P s) : P t := by
  unfold execMovwiMod at h
  split at h
  · simp at h
  · rename_i loc hl
    injection h with h
    subst h
    refine hk.afterWrite _ _ ?_
    have hr : ∀ u : State, u.config = s.config → ∀ a, loc = .ram a → ramAddress u.config.device a = true := by
      intro u hu a ha
      subst ha
      rw [hu]
      exact locateFsr_ram hl
    have hp := hk.pointer n (pointerAfter mm (s.fsr n)) hs
    cases mm
    · exact hk.write _ _ _ _ (hr _ (State.setFsr_config s n _)) hp
    · exact hk.write _ _ _ _ (hr _ (State.setFsr_config s n _)) hp
    · exact hk.pointer _ _ (hk.write s _ _ _ (hr s rfl) hs)
    · exact hk.pointer _ _ (hk.write s _ _ _ (hr s rfl) hs)

theorem moviwIdx {n : FsrSel} {k : BitVec 6} (h : execMoviwIdx n k s = .next t) (hs : P s) : P t := by
  unfold execMoviwIdx at h
  split at h
  · simp at h
  · rename_i loc hl
    injection h with h
    subst h
    have h1 := hk.read loc hs
    exact hk.move _ _ (hk.registers _ _ (afterRead s loc).c (afterRead s loc).dc _ (afterRead s loc).bsr
      (afterRead s loc).pclath (afterRead s loc).fsr0 (afterRead s loc).fsr1 (afterRead s loc).pc
      (afterRead s loc).cycles (afterRead s loc).sfrReads h1)

theorem movwiIdx {n : FsrSel} {k : BitVec 6} (h : execMovwiIdx n k s = .next t) (hs : P s) : P t := by
  unfold execMovwiIdx at h
  split at h
  · simp at h
  · rename_i loc hl
    injection h with h
    subst h
    refine hk.store _ _ (fun a ha => ?_) hs
    subst ha
    exact locateFsr_ram hl

omit hk in
/-- The next state is the one the meaning names. -/
theorem next_of {u : State} (h : (Host.Outcome.next u : Result) = .next t) (hu : P u) : P t := by
  injection h with h
  exact h ▸ hu

theorem tris {f : BitVec 3} (h : execTris f s = .next t) (hs : P s) : P t := by
  unfold execTris at h
  split at h
  · exact next_of h (hk.store (loc := .trisa) _ _ (by simp) hs)
  · split at h
    · exact next_of h (hk.store (loc := .trisb) _ _ (by simp) hs)
    · split at h
      · exact next_of h (hk.store (loc := .trisc) _ _ (by simp) hs)
      · exact next_of h (hk.move _ _ hs)

/-- Every instruction keeps the property but CLRWDT, SLEEP and those that may reset the device. -/
theorem execPlain {i : Instr} (hc : i ≠ .clrwdt) (hsl : i ≠ .sleep) (hm : mayReset i = false) (h : exec i s = .next t)
    (hs : P s) : P t := by
  cases i with
  | clrwdt => exact absurd rfl hc
  | sleep => exact absurd rfl hsl
  | clrf f => exact hk.fileStore h hs
  | movwf f => exact hk.fileStore h hs
  | decfsz f d => exact hk.byteSkip (op := fun a => a - 1) h hs
  | incfsz f d => exact hk.byteSkip (op := fun a => a + 1) h hs
  | btfsc f b => exact hk.bitSkip h hs
  | btfss f b => exact hk.bitSkip h hs
  | clrw => exact hk.literalOp h hs
  | addlw k => exact hk.literalOp h hs
  | andlw k => exact hk.literalOp h hs
  | iorlw k => exact hk.literalOp h hs
  | movlw k => exact hk.literalOp h hs
  | sublw k => exact hk.literalOp h hs
  | xorlw k => exact hk.literalOp h hs
  | movlb k =>
    exact next_of h (hk.move (s := { s with bsr := k }) _ _
      (hk.registers s s.w s.c s.dc s.z k s.pclath s.fsr0 s.fsr1 s.pc s.cycles s.sfrReads hs))
  | movlp k =>
    exact next_of h (hk.move (s := { s with pclath := k }) _ _
      (hk.registers s s.w s.c s.dc s.z s.bsr k s.fsr0 s.fsr1 s.pc s.cycles s.sfrReads hs))
  | bra k => exact next_of h (hk.move _ _ hs)
  | brw => exact next_of h (hk.move _ _ hs)
  | goto k => exact next_of h (hk.move _ _ hs)
  | nop => exact next_of h (hk.move _ _ hs)
  | call k => simp [mayReset] at hm
  | callw => simp [mayReset] at hm
  | retfie => simp [mayReset] at hm
  | retlw k => simp [mayReset] at hm
  | ret => simp [mayReset] at hm
  | optionW => exact next_of h (hk.store (loc := .optionReg) _ _ (by simp) hs)
  | reset => simp [mayReset] at hm
  | tris f => exact hk.tris h hs
  | addfsr n k => exact next_of h (hk.move _ _ (hk.pointer _ _ hs))
  | moviwMod n mm => exact hk.moviw h hs
  | moviwIdx n k => exact hk.moviwIdx h hs
  | movwiMod n mm => exact hk.movwi h hs
  | movwiIdx n k => exact hk.movwiIdx h hs
  | addwf f d => exact hk.byteOp (op := fun a => add8 s.w a false) h hs
  | addwfc f d => exact hk.byteOp (op := fun a => add8 s.w a s.c) h hs
  | andwf f d => exact hk.byteOp (op := fun a => aluZ (s.w &&& a)) h hs
  | asrf f d => exact hk.byteOp (op := fun a => asr8 a) h hs
  | lslf f d => exact hk.byteOp (op := fun a => lsl8 a) h hs
  | lsrf f d => exact hk.byteOp (op := fun a => lsr8 a) h hs
  | comf f d => exact hk.byteOp (op := fun a => aluZ (~~~a)) h hs
  | decf f d => exact hk.byteOp (op := fun a => aluZ (a - 1)) h hs
  | incf f d => exact hk.byteOp (op := fun a => aluZ (a + 1)) h hs
  | iorwf f d => exact hk.byteOp (op := fun a => aluZ (s.w ||| a)) h hs
  | movf f d => exact hk.byteOp (op := fun a => aluZ a) h hs
  | rlf f d => exact hk.byteOp (op := fun a => rl8 a s.c) h hs
  | rrf f d => exact hk.byteOp (op := fun a => rr8 a s.c) h hs
  | subwf f d => exact hk.byteOp (op := fun a => sub8 a s.w) h hs
  | subwfb f d => exact hk.byteOp (op := fun a => subb8 a s.w s.c) h hs
  | swapf f d => exact hk.byteOp (op := fun a => aluPlain (swap8 a)) h hs
  | xorwf f d => exact hk.byteOp (op := fun a => aluZ (s.w ^^^ a)) h hs
  | bcf f b => exact hk.byteOp (op := fun a => aluPlain (a &&& ~~~(bitMask b))) h hs
  | bsf f b => exact hk.byteOp (op := fun a => aluPlain (a ||| bitMask b)) h hs

/-- Every instruction other than CLRWDT and SLEEP keeps the property, if resets keep it. -/
theorem exec (hr : KeptByResets P) {i : Instr} (hc : i ≠ .clrwdt) (hsl : i ≠ .sleep) (h : exec i s = .next t) (hs : P s) :
    P t := by
  by_cases hm : mayReset i = false
  · exact hk.execPlain hc hsl hm h hs
  · cases i with
    | call k => exact hk.callTo hr h hs
    | callw => exact hk.callTo hr h hs
    | retfie =>
      exact hk.returnWith hr h hs fun u hu => hk.gie _ _
        (hk.registers u _ _ _ _ _ _ _ _ u.pc u.cycles u.sfrReads hu)
    | retlw k => exact hk.returnWith hr h hs fun u hu => hk.setW k hu
    | ret => exact hk.returnWith hr h hs fun u hu => hu
    | reset =>
      exact next_of h (hr { s with cycles := s.cycles + 1 } .resetInstruction (by simp)
        (hk.registers s s.w s.c s.dc s.z s.bsr s.pclath s.fsr0 s.fsr1 s.pc _ s.sfrReads hs))
    | _ => exact absurd rfl hm

end KeptByUpdates

end Sys2Proof.Machine
end

