-- ==== Sys2Proof/Laws/PerInstr.lean ====
section
/-! SUPPORT. One lemma for each constructor of Instr: the word of a well-formed instruction is read, by a row of the opcode
table, as that instruction (`30_encoding.md` R112, R113). -/

namespace Sys2Proof.Laws

/-- Some row of the opcode table reads the instruction's own word as the instruction. -/
def EncodesInRow.Statement (i : Instr) : Prop :=
  i.wellFormed = true → ∃ r ∈ opTable, RowReads r (encode i) i

theorem EncodesInRow.addwf (f : FileAddr) (d : Dest) : EncodesInRow.Statement (.addwf f d) := fun _ =>
  exists_row 0 (by decide) (rowReads_of ((mask_high_field (0b000111#6 ++ destBit d) 0b1111110#7 f).trans (by cases d <;> rfl)) rfl (congrArg₂ Instr.addwf (fieldF_append _ f) (fieldD_append _ d f)))

theorem EncodesInRow.addwfc (f : FileAddr) (d : Dest) : EncodesInRow.Statement (.addwfc f d) := fun _ =>
  exists_row 1 (by decide) (rowReads_of ((mask_high_field (0b111101#6 ++ destBit d) 0b1111110#7 f).trans (by cases d <;> rfl)) rfl (congrArg₂ Instr.addwfc (fieldF_append _ f) (fieldD_append _ d f)))

theorem EncodesInRow.andwf (f : FileAddr) (d : Dest) : EncodesInRow.Statement (.andwf f d) := fun _ =>
  exists_row 2 (by decide) (rowReads_of ((mask_high_field (0b000101#6 ++ destBit d) 0b1111110#7 f).trans (by cases d <;> rfl)) rfl (congrArg₂ Instr.andwf (fieldF_append _ f) (fieldD_append _ d f)))

theorem EncodesInRow.asrf (f : FileAddr) (d : Dest) : EncodesInRow.Statement (.asrf f d) := fun _ =>
  exists_row 3 (by decide) (rowReads_of ((mask_high_field (0b110111#6 ++ destBit d) 0b1111110#7 f).trans (by cases d <;> rfl)) rfl (congrArg₂ Instr.asrf (fieldF_append _ f) (fieldD_append _ d f)))

theorem EncodesInRow.lslf (f : FileAddr) (d : Dest) : EncodesInRow.Statement (.lslf f d) := fun _ =>
  exists_row 4 (by decide) (rowReads_of ((mask_high_field (0b110101#6 ++ destBit d) 0b1111110#7 f).trans (by cases d <;> rfl)) rfl (congrArg₂ Instr.lslf (fieldF_append _ f) (fieldD_append _ d f)))

theorem EncodesInRow.lsrf (f : FileAddr) (d : Dest) : EncodesInRow.Statement (.lsrf f d) := fun _ =>
  exists_row 5 (by decide) (rowReads_of ((mask_high_field (0b110110#6 ++ destBit d) 0b1111110#7 f).trans (by cases d <;> rfl)) rfl (congrArg₂ Instr.lsrf (fieldF_append _ f) (fieldD_append _ d f)))

theorem EncodesInRow.clrf (f : FileAddr) : EncodesInRow.Statement (.clrf f) := fun _ =>
  exists_row 6 (by decide) (rowReads_of (mask_high_field 0b0000011#7 0b1111111#7 f) rfl (congrArg Instr.clrf (extract_low_field _ f)))

theorem EncodesInRow.clrw : EncodesInRow.Statement .clrw := fun _ => exists_row 7 (by decide) ⟨rfl, rfl⟩

theorem EncodesInRow.comf (f : FileAddr) (d : Dest) : EncodesInRow.Statement (.comf f d) := fun _ =>
  exists_row 8 (by decide) (rowReads_of ((mask_high_field (0b001001#6 ++ destBit d) 0b1111110#7 f).trans (by cases d <;> rfl)) rfl (congrArg₂ Instr.comf (fieldF_append _ f) (fieldD_append _ d f)))

theorem EncodesInRow.decf (f : FileAddr) (d : Dest) : EncodesInRow.Statement (.decf f d) := fun _ =>
  exists_row 9 (by decide) (rowReads_of ((mask_high_field (0b000011#6 ++ destBit d) 0b1111110#7 f).trans (by cases d <;> rfl)) rfl (congrArg₂ Instr.decf (fieldF_append _ f) (fieldD_append _ d f)))

theorem EncodesInRow.incf (f : FileAddr) (d : Dest) : EncodesInRow.Statement (.incf f d) := fun _ =>
  exists_row 10 (by decide) (rowReads_of ((mask_high_field (0b001010#6 ++ destBit d) 0b1111110#7 f).trans (by cases d <;> rfl)) rfl (congrArg₂ Instr.incf (fieldF_append _ f) (fieldD_append _ d f)))

theorem EncodesInRow.iorwf (f : FileAddr) (d : Dest) : EncodesInRow.Statement (.iorwf f d) := fun _ =>
  exists_row 11 (by decide) (rowReads_of ((mask_high_field (0b000100#6 ++ destBit d) 0b1111110#7 f).trans (by cases d <;> rfl)) rfl (congrArg₂ Instr.iorwf (fieldF_append _ f) (fieldD_append _ d f)))

theorem EncodesInRow.movf (f : FileAddr) (d : Dest) : EncodesInRow.Statement (.movf f d) := fun _ =>
  exists_row 12 (by decide) (rowReads_of ((mask_high_field (0b001000#6 ++ destBit d) 0b1111110#7 f).trans (by cases d <;> rfl)) rfl (congrArg₂ Instr.movf (fieldF_append _ f) (fieldD_append _ d f)))

theorem EncodesInRow.movwf (f : FileAddr) : EncodesInRow.Statement (.movwf f) := fun _ =>
  exists_row 13 (by decide) (rowReads_of (mask_high_field 0b0000001#7 0b1111111#7 f) rfl (congrArg Instr.movwf (extract_low_field _ f)))

theorem EncodesInRow.rlf (f : FileAddr) (d : Dest) : EncodesInRow.Statement (.rlf f d) := fun _ =>
  exists_row 14 (by decide) (rowReads_of ((mask_high_field (0b001101#6 ++ destBit d) 0b1111110#7 f).trans (by cases d <;> rfl)) rfl (congrArg₂ Instr.rlf (fieldF_append _ f) (fieldD_append _ d f)))

theorem EncodesInRow.rrf (f : FileAddr) (d : Dest) : EncodesInRow.Statement (.rrf f d) := fun _ =>
  exists_row 15 (by decide) (rowReads_of ((mask_high_field (0b001100#6 ++ destBit d) 0b1111110#7 f).trans (by cases d <;> rfl)) rfl (congrArg₂ Instr.rrf (fieldF_append _ f) (fieldD_append _ d f)))

theorem EncodesInRow.subwf (f : FileAddr) (d : Dest) : EncodesInRow.Statement (.subwf f d) := fun _ =>
  exists_row 16 (by decide) (rowReads_of ((mask_high_field (0b000010#6 ++ destBit d) 0b1111110#7 f).trans (by cases d <;> rfl)) rfl (congrArg₂ Instr.subwf (fieldF_append _ f) (fieldD_append _ d f)))

theorem EncodesInRow.subwfb (f : FileAddr) (d : Dest) : EncodesInRow.Statement (.subwfb f d) := fun _ =>
  exists_row 17 (by decide) (rowReads_of ((mask_high_field (0b111011#6 ++ destBit d) 0b1111110#7 f).trans (by cases d <;> rfl)) rfl (congrArg₂ Instr.subwfb (fieldF_append _ f) (fieldD_append _ d f)))

theorem EncodesInRow.swapf (f : FileAddr) (d : Dest) : EncodesInRow.Statement (.swapf f d) := fun _ =>
  exists_row 18 (by decide) (rowReads_of ((mask_high_field (0b001110#6 ++ destBit d) 0b1111110#7 f).trans (by cases d <;> rfl)) rfl (congrArg₂ Instr.swapf (fieldF_append _ f) (fieldD_append _ d f)))

theorem EncodesInRow.xorwf (f : FileAddr) (d : Dest) : EncodesInRow.Statement (.xorwf f d) := fun _ =>
  exists_row 19 (by decide) (rowReads_of ((mask_high_field (0b000110#6 ++ destBit d) 0b1111110#7 f).trans (by cases d <;> rfl)) rfl (congrArg₂ Instr.xorwf (fieldF_append _ f) (fieldD_append _ d f)))

theorem EncodesInRow.decfsz (f : FileAddr) (d : Dest) : EncodesInRow.Statement (.decfsz f d) := fun _ =>
  exists_row 20 (by decide) (rowReads_of ((mask_high_field (0b001011#6 ++ destBit d) 0b1111110#7 f).trans (by cases d <;> rfl)) rfl (congrArg₂ Instr.decfsz (fieldF_append _ f) (fieldD_append _ d f)))

theorem EncodesInRow.incfsz (f : FileAddr) (d : Dest) : EncodesInRow.Statement (.incfsz f d) := fun _ =>
  exists_row 21 (by decide) (rowReads_of ((mask_high_field (0b001111#6 ++ destBit d) 0b1111110#7 f).trans (by cases d <;> rfl)) rfl (congrArg₂ Instr.incfsz (fieldF_append _ f) (fieldD_append _ d f)))

theorem EncodesInRow.bcf (f : FileAddr) (b : BitVec 3) : EncodesInRow.Statement (.bcf f b) := fun _ =>
  exists_row 22 (by decide) (rowReads_of ((mask_high_field (0b0100#4 ++ b) 0b1111000#7 f).trans (congrArg (· ++ 0#7) (mask_high_field 0b0100#4 0b1111#4 b))) rfl (congrArg₂ Instr.bcf (fieldF_append _ f) (fieldB_append _ b f)))

theorem EncodesInRow.bsf (f : FileAddr) (b : BitVec 3) : EncodesInRow.Statement (.bsf f b) := fun _ =>
  exists_row 23 (by decide) (rowReads_of ((mask_high_field (0b0101#4 ++ b) 0b1111000#7 f).trans (congrArg (· ++ 0#7) (mask_high_field 0b0101#4 0b1111#4 b))) rfl (congrArg₂ Instr.bsf (fieldF_append _ f) (fieldB_append _ b f)))

theorem EncodesInRow.btfsc (f : FileAddr) (b : BitVec 3) : EncodesInRow.Statement (.btfsc f b) := fun _ =>
  exists_row 24 (by decide) (rowReads_of ((mask_high_field (0b0110#4 ++ b) 0b1111000#7 f).trans (congrArg (· ++ 0#7) (mask_high_field 0b0110#4 0b1111#4 b))) rfl (congrArg₂ Instr.btfsc (fieldF_append _ f) (fieldB_append _ b f)))

theorem EncodesInRow.btfss (f : FileAddr) (b : BitVec 3) : EncodesInRow.Statement (.btfss f b) := fun _ =>
  exists_row 25 (by decide) (rowReads_of ((mask_high_field (0b0111#4 ++ b) 0b1111000#7 f).trans (congrArg (· ++ 0#7) (mask_high_field 0b0111#4 0b1111#4 b))) rfl (congrArg₂ Instr.btfss (fieldF_append _ f) (fieldB_append _ b f)))

theorem EncodesInRow.addlw (k : Byte) : EncodesInRow.Statement (.addlw k) := fun _ =>
  exists_row 26 (by decide) (rowReads_of (mask_high_field 0b111110#6 0b111111#6 k) rfl (congrArg Instr.addlw (extract_low_field _ k)))

theorem EncodesInRow.andlw (k : Byte) : EncodesInRow.Statement (.andlw k) := fun _ =>
  exists_row 27 (by decide) (rowReads_of (mask_high_field 0b111001#6 0b111111#6 k) rfl (congrArg Instr.andlw (extract_low_field _ k)))

theorem EncodesInRow.iorlw (k : Byte) : EncodesInRow.Statement (.iorlw k) := fun _ =>
  exists_row 28 (by decide) (rowReads_of (mask_high_field 0b111000#6 0b111111#6 k) rfl (congrArg Instr.iorlw (extract_low_field _ k)))

theorem EncodesInRow.movlb (k : BitVec 5) : EncodesInRow.Statement (.movlb k) := fun _ =>
  exists_row 29 (by decide) (rowReads_of (mask_high_field 0b000000001#9 0b111111111#9 k) rfl (congrArg Instr.movlb (extract_low_field _ k)))

theorem EncodesInRow.movlp (k : BitVec 7) : EncodesInRow.Statement (.movlp k) := fun _ =>
  exists_row 30 (by decide) (rowReads_of (mask_high_field 0b1100011#7 0b1111111#7 k) rfl (congrArg Instr.movlp (extract_low_field _ k)))

theorem EncodesInRow.movlw (k : Byte) : EncodesInRow.Statement (.movlw k) := fun _ =>
  exists_row 31 (by decide) (rowReads_of (mask_high_field 0b110000#6 0b111111#6 k) rfl (congrArg Instr.movlw (extract_low_field _ k)))

theorem EncodesInRow.sublw (k : Byte) : EncodesInRow.Statement (.sublw k) := fun _ =>
  exists_row 32 (by decide) (rowReads_of (mask_high_field 0b111100#6 0b111111#6 k) rfl (congrArg Instr.sublw (extract_low_field _ k)))

theorem EncodesInRow.xorlw (k : Byte) : EncodesInRow.Statement (.xorlw k) := fun _ =>
  exists_row 33 (by decide) (rowReads_of (mask_high_field 0b111010#6 0b111111#6 k) rfl (congrArg Instr.xorlw (extract_low_field _ k)))

theorem EncodesInRow.bra (k : BitVec 9) : EncodesInRow.Statement (.bra k) := fun _ =>
  exists_row 34 (by decide) (rowReads_of (mask_high_field 0b11001#5 0b11111#5 k) rfl (congrArg Instr.bra (extract_low_field _ k)))

theorem EncodesInRow.brw : EncodesInRow.Statement .brw := fun _ => exists_row 35 (by decide) ⟨rfl, rfl⟩

theorem EncodesInRow.call (k : BitVec 11) : EncodesInRow.Statement (.call k) := fun _ =>
  exists_row 36 (by decide) (rowReads_of (mask_high_field 0b100#3 0b111#3 k) rfl (congrArg Instr.call (extract_low_field _ k)))

theorem EncodesInRow.callw : EncodesInRow.Statement .callw := fun _ => exists_row 37 (by decide) ⟨rfl, rfl⟩

theorem EncodesInRow.goto (k : BitVec 11) : EncodesInRow.Statement (.goto k) := fun _ =>
  exists_row 38 (by decide) (rowReads_of (mask_high_field 0b101#3 0b111#3 k) rfl (congrArg Instr.goto (extract_low_field _ k)))

theorem EncodesInRow.retfie : EncodesInRow.Statement .retfie := fun _ => exists_row 39 (by decide) ⟨rfl, rfl⟩

theorem EncodesInRow.retlw (k : Byte) : EncodesInRow.Statement (.retlw k) := fun _ =>
  exists_row 40 (by decide) (rowReads_of (mask_high_field 0b110100#6 0b111111#6 k) rfl (congrArg Instr.retlw (extract_low_field _ k)))

theorem EncodesInRow.ret : EncodesInRow.Statement .ret := fun _ => exists_row 41 (by decide) ⟨rfl, rfl⟩

theorem EncodesInRow.clrwdt : EncodesInRow.Statement .clrwdt := fun _ => exists_row 42 (by decide) ⟨rfl, rfl⟩

theorem EncodesInRow.nop : EncodesInRow.Statement .nop := fun _ => exists_row 43 (by decide) ⟨rfl, rfl⟩

theorem EncodesInRow.optionW : EncodesInRow.Statement .optionW := fun _ => exists_row 44 (by decide) ⟨rfl, rfl⟩

theorem EncodesInRow.reset : EncodesInRow.Statement .reset := fun _ => exists_row 45 (by decide) ⟨rfl, rfl⟩

theorem EncodesInRow.sleep : EncodesInRow.Statement .sleep := fun _ => exists_row 46 (by decide) ⟨rfl, rfl⟩

theorem EncodesInRow.tris (f : BitVec 3) : EncodesInRow.Statement (.tris f) := fun h =>
  exists_row 47 (by decide) (rowReads_of (mask_high_field 0b00000001100#11 0b11111111111#11 f)
    ((congrArg (fun x : BitVec 3 => decide (5 ≤ x.toNat)) (extract_low_field _ f)).trans h)
    (congrArg Instr.tris (extract_low_field _ f)))

theorem EncodesInRow.addfsr (n : FsrSel) (k : BitVec 6) : EncodesInRow.Statement (.addfsr n k) := fun _ =>
  exists_row 48 (by decide) (rowReads_of ((mask_high_field (0b1100010#7 ++ fsrBit n) 0b11111110#8 k).trans (by cases n <;> rfl)) rfl (congrArg₂ Instr.addfsr (fieldN_append _ n k) (extract_low_field _ k)))

theorem EncodesInRow.moviwMod (n : FsrSel) (mm : PtrMode) : EncodesInRow.Statement (.moviwMod n mm) := fun _ =>
  exists_row 49 (by decide) (by cases n <;> cases mm <;> exact ⟨rfl, rfl⟩)

theorem EncodesInRow.moviwIdx (n : FsrSel) (k : BitVec 6) : EncodesInRow.Statement (.moviwIdx n k) := fun _ =>
  exists_row 50 (by decide) (rowReads_of ((mask_high_field (0b1111110#7 ++ fsrBit n) 0b11111110#8 k).trans (by cases n <;> rfl)) rfl (congrArg₂ Instr.moviwIdx (fieldN_append _ n k) (extract_low_field _ k)))

theorem EncodesInRow.movwiMod (n : FsrSel) (mm : PtrMode) : EncodesInRow.Statement (.movwiMod n mm) := fun _ =>
  exists_row 51 (by decide) (by cases n <;> cases mm <;> exact ⟨rfl, rfl⟩)

theorem EncodesInRow.movwiIdx (n : FsrSel) (k : BitVec 6) : EncodesInRow.Statement (.movwiIdx n k) := fun _ =>
  exists_row 52 (by decide) (rowReads_of ((mask_high_field (0b1111111#7 ++ fsrBit n) 0b11111110#8 k).trans (by cases n <;> rfl)) rfl (congrArg₂ Instr.movwiIdx (fieldN_append _ n k) (extract_low_field _ k)))

end Sys2Proof.Laws
end

