-- ==== Sys2Proof/Laws/Step.lean ====
section
/-! SUPPORT. Everything one step can do. -/

namespace Sys2Proof.Machine

/-- What a step that answers a next state did: the agent whose turn it was, and its move. -/
inductive StepTo (s' t : State) : Turn → Prop where
  /-- The CPU slept, and stays asleep or wakes. -/
  | waited (ha : s'.asleep = true) (ht : t = s'.wakeUp) : StepTo s' t .cpu
  /-- The CPU entered the interrupt, or was reset by the push on a full stack. -/
  | entered (ha : s'.asleep = false) (ht : interruptEntry s' = .next t) : StepTo s' t .cpu
  /-- The CPU ran an instruction; `u` is `s'` but for the stage of a wake-up. -/
  | ran (u : State) (i : Instr) (ha : s'.asleep = false)
      (hu : (s'.wake = .settled ∧ u = s') ∨ (s'.wake = .resumeFirst ∧ u = { s' with wake := .entryDue }))
      (hd : decode (u.progRead u.pc) = .ok i) (ht : exec i u = .next t) : StepTo s' t .cpu
  | platform (e : PlatformEvent) (ht : t = (s'.platformEvent e).wakeUp) : StepTo s' t (.platform e)
  | external (c : ExternalCause) (ht : t = deviceReset c.toCause s') : StepTo s' t (.externalReset c)
  | wdtRun (ht : t = s'.wdtRun) : StepTo s' t .wdtRun
  | wdtTimeout (ht : t = s'.wdtTimeout) : StepTo s' t .wdtTimeout

/-- An instruction that is run is decoded first. -/
theorem runInstruction_next {u t : State} (h : runInstruction u = .next t) :
    ∃ i, decode (u.progRead u.pc) = .ok i ∧ exec i u = .next t := by
  unfold runInstruction at h
  split at h
  · rename_i i hi
    exact ⟨i, hi, h⟩
  · simp at h

/-- Every step that answers a next state is one of the moves of `StepTo`. -/
theorem step_next {s t : State} (h : step s = .next t) : ∃ a s', TurnOf s a s' ∧ StepTo s' t a := by
  obtain ⟨a, s', ht⟩ := turn_exists s
  refine ⟨a, s', ht, ?_⟩
  rw [step_of_turn ht] at h
  cases a with
  | cpu =>
    have hc : cpuStep s' = .next t := h
    rcases cpuStep_cases s' with ⟨ha, he⟩ | ⟨ha, hw, hr, he⟩ | ⟨ha, hw, hr, he⟩ | ⟨ha, hw, he⟩ | ⟨ha, hw, he⟩
      <;> rw [he] at hc
    · injection hc with hc
      exact .waited ha hc.symm
    · exact .entered ha hc
    · obtain ⟨i, hd, hx⟩ := runInstruction_next hc
      exact .ran s' i ha (.inl ⟨hw, rfl⟩) hd hx
    · obtain ⟨i, hd, hx⟩ := runInstruction_next hc
      exact .ran _ i ha (.inr ⟨hw, rfl⟩) hd hx
    · exact .entered ha hc
  | platform e =>
    injection h with h
    exact .platform e h.symm
  | externalReset c =>
    injection h with h
    exact .external c h.symm
  | wdtRun =>
    injection h with h
    exact .wdtRun h.symm
  | wdtTimeout =>
    injection h with h
    exact .wdtTimeout h.symm

/-- A step is refused exactly when an interrupt entry or the running of a word is. -/
theorem step_refused {s : State} {r : Refusal} : step s = .refused r ↔ ∃ s',
    (EntersNow s s' ∧ interruptEntry s' = .refused r) ∨ (Fetches s s' ∧ runInstruction s'.fetching = .refused r) := by
  constructor
  · intro h
    obtain ⟨a, s', ht⟩ := turn_exists s
    have hs := step_of_turn ht
    cases a with
    | cpu =>
      refine ⟨s', ?_⟩
      rcases cpu_turn ht with ha | he | hf
      · simp [hs, takeTurn, cpuStep, ha] at h
      · exact .inl ⟨he, step_of_entersNow he ▸ h⟩
      · exact .inr ⟨hf, step_of_fetches hf ▸ h⟩
    | platform e => simp [hs, takeTurn] at h
    | externalReset c => simp [hs, takeTurn] at h
    | wdtRun => simp [hs, takeTurn] at h
    | wdtTimeout => simp [hs, takeTurn] at h
  · rintro ⟨s', ⟨he, h⟩ | ⟨hf, h⟩⟩
    · rw [step_of_entersNow he, h]
    · rw [step_of_fetches hf, h]

end Sys2Proof.Machine
end

