-- ==== Sys2Proof/Tests/Slice0.lean ====
section
/-! SUPPORT. Tests. The words are written out bit by bit from the patterns of R113; expected values are those of the spec's
own examples and corner cases (the rule is named at each test), each checked in one step on a small state. The theorems
`witness_…` show that the hypotheses of the obligation they name can be met, at a boundary value of each clause. -/

namespace Sys2Proof.Tests

open Sys2Proof.Machine

/-- The start state of `95_test_vectors.md`: pc = 0x0100, everything else as after reset. -/
def start : State := { State.reset with pc := 0x0100#15 }

/-- The start state with W, the byte at data address 0x020, and the flags C, DC, Z. -/
def file (w v : Byte) (c : Bool := false) (dc : Bool := false) (z : Bool := false) : State :=
  { start with w := w, ram := [(0x20, v)], c := c, dc := dc, z := z }

/-- The outcome is a next state with the property. -/
def gives (r : Result) (p : State → Bool) : Bool :=
  match r with
  | .next t => p t
  | .fault _ => false
  | .refused _ => false

/-- C, DC, Z of a state. -/
def flags (t : State) : Bool × Bool × Bool := (t.c, t.dc, t.z)

/-! ### WellFormed -/

theorem test_wellFormed_tris_low : (Instr.tris 4#3).wellFormed = false := by decide
theorem test_wellFormed_tris_ok : (Instr.tris 5#3).wellFormed = true := by decide

/-! ### Decoding: one word of every constructor, bit by bit -/

theorem test_decode_byte_arith :
    decode 0b00011100100000#14 = .ok (.addwf 0x20#7 .w) ∧ decode 0b11110110100001#14 = .ok (.addwfc 0x21#7 .f)
    ∧ decode 0b00001011111111#14 = .ok (.subwf 0x7F#7 .f) ∧ decode 0b11101100100000#14 = .ok (.subwfb 0x20#7 .w)
    ∧ decode 0b00001110100000#14 = .ok (.decf 0x20#7 .f) ∧ decode 0b00101000100000#14 = .ok (.incf 0x20#7 .w) := by
  decide

theorem test_decode_byte_logic :
    decode 0b00010110100000#14 = .ok (.andwf 0x20#7 .f) ∧ decode 0b00010000100000#14 = .ok (.iorwf 0x20#7 .w)
    ∧ decode 0b00011010100000#14 = .ok (.xorwf 0x20#7 .f) ∧ decode 0b00100110100000#14 = .ok (.comf 0x20#7 .f)
    ∧ decode 0b00111000100000#14 = .ok (.swapf 0x20#7 .w) := by decide

theorem test_decode_byte_shift :
    decode 0b11011110100000#14 = .ok (.asrf 0x20#7 .f) ∧ decode 0b11010110100000#14 = .ok (.lslf 0x20#7 .f)
    ∧ decode 0b11011000100000#14 = .ok (.lsrf 0x20#7 .w) ∧ decode 0b00110100100000#14 = .ok (.rlf 0x20#7 .w)
    ∧ decode 0b00110010100000#14 = .ok (.rrf 0x20#7 .f) := by decide

theorem test_decode_byte_move :
    decode 0b00000110100000#14 = .ok (.clrf 0x20#7) ∧ decode 0b00000100000011#14 = .ok .clrw
    ∧ decode 0b00100000100000#14 = .ok (.movf 0x20#7 .w) ∧ decode 0b00000010100000#14 = .ok (.movwf 0x20#7)
    ∧ decode 0b00101110100000#14 = .ok (.decfsz 0x20#7 .f) ∧ decode 0b00111100100000#14 = .ok (.incfsz 0x20#7 .w) := by
  decide

theorem test_decode_bit :
    decode 0b01001110100000#14 = .ok (.bcf 0x20#7 7#3) ∧ decode 0b01010000000011#14 = .ok (.bsf 0x03#7 0#3)
    ∧ decode 0b01100010100000#14 = .ok (.btfsc 0x20#7 1#3) ∧ decode 0b01111110100000#14 = .ok (.btfss 0x20#7 7#3) := by
  decide

theorem test_decode_literal :
    decode 0b11111000010101#14 = .ok (.addlw 0x15#8) ∧ decode 0b11100101011111#14 = .ok (.andlw 0x5F#8)
    ∧ decode 0b11100000110101#14 = .ok (.iorlw 0x35#8) ∧ decode 0b00000000111111#14 = .ok (.movlb 31#5)
    ∧ decode 0b11000111111111#14 = .ok (.movlp 0x7F#7) ∧ decode 0b11000001011010#14 = .ok (.movlw 0x5A#8)
    ∧ decode 0b11110000010000#14 = .ok (.sublw 0x10#8) ∧ decode 0b11101010101111#14 = .ok (.xorlw 0xAF#8) := by decide

theorem test_decode_control :
    decode 0b11001111111110#14 = .ok (.bra 0x1FE#9) ∧ decode 0b00000000001011#14 = .ok .brw
    ∧ decode 0b10000100100011#14 = .ok (.call 0x123#11) ∧ decode 0b00000000001010#14 = .ok .callw
    ∧ decode 0b10111111111111#14 = .ok (.goto 0x7FF#11) ∧ decode 0b00000000001001#14 = .ok .retfie
    ∧ decode 0b11010001010101#14 = .ok (.retlw 0x55#8) ∧ decode 0b00000000001000#14 = .ok .ret := by decide

theorem test_decode_inherent :
    decode 0b00000001100100#14 = .ok .clrwdt ∧ decode 0b00000000000000#14 = .ok .nop
    ∧ decode 0b00000001100010#14 = .ok .optionW ∧ decode 0b00000000000001#14 = .ok .reset
    ∧ decode 0b00000001100011#14 = .ok .sleep ∧ decode 0b00000001100111#14 = .ok (.tris 7#3) := by decide

theorem test_decode_compiler :
    decode 0b11000101000001#14 = .ok (.addfsr .fsr1 1#6) ∧ decode 0b00000000010110#14 = .ok (.moviwMod .fsr1 .postInc)
    ∧ decode 0b00000000010001#14 = .ok (.moviwMod .fsr0 .preDec) ∧ decode 0b11111100111111#14 = .ok (.moviwIdx .fsr0 0x3F#6)
    ∧ decode 0b00000000011000#14 = .ok (.movwiMod .fsr0 .preInc)
    ∧ decode 0b00000000011111#14 = .ok (.movwiMod .fsr1 .postDec)
    ∧ decode 0b11111111000000#14 = .ok (.movwiIdx .fsr1 0#6) := by decide

theorem test_decodeTableWord : decodeTableWord 16 0x305A = some (.movlw 0x5A#8) ∧ decodeTableWord 16 0x4000 = none := by
  decide

/-! ### Byte-oriented instructions -/

/-- R141. -/
theorem test_addwf : gives (exec (.addwf 0x20#7 .w) (file 0x17#8 0xC2#8)) (fun t =>
    t.w == 0xD9#8 && t.ramByte 0x20 == 0xC2#8 && flags t == (false, false, false)) = true := by decide

/-- R141: the computed jump; no carry into PC<14:8>. -/
theorem test_addwf_pcl : gives (exec (.addwf 0x02#7 .f) { start with w := 0xFF#8, pclath := 0x12#7 }) (fun t =>
    t.pc == 0x1200#15 && t.c && t.z && t.cycles == 2) = true := by decide

/-- R142. -/
theorem test_addwfc : gives (exec (.addwfc 0x20#7 .w) (file 0x4D#8 0x02#8 (c := true))) (fun t =>
    t.w == 0x50#8 && flags t == (false, true, false)) = true := by decide

/-- R143. -/
theorem test_andwf : gives (exec (.andwf 0x20#7 .f) (file 0x17#8 0xC2#8)) (fun t =>
    t.ramByte 0x20 == 0x02#8 && t.w == 0x17#8 && !t.z) = true := by decide

/-- R144. -/
theorem test_asrf : gives (exec (.asrf 0x20#7 .f) (file 0x00#8 0x81#8)) (fun t =>
    t.ramByte 0x20 == 0xC0#8 && t.c && !t.z) = true := by decide

/-- R145. -/
theorem test_lslf : gives (exec (.lslf 0x20#7 .f) (file 0x00#8 0x80#8)) (fun t =>
    t.ramByte 0x20 == 0x00#8 && t.c && t.z) = true := by decide

/-- R146: the old C is no input. -/
theorem test_lsrf : gives (exec (.lsrf 0x20#7 .f) (file 0x00#8 0x81#8 (c := true))) (fun t =>
    t.ramByte 0x20 == 0x40#8 && t.c && !t.z) = true := by decide

/-- R147: CLRF STATUS leaves `000u u1uu`. -/
theorem test_clrf_status : gives (exec (.clrf 0x03#7) (file 0x00#8 0x00#8 (c := true) (dc := true))) (fun t =>
    flags t == (true, true, true) && t.nTO && t.nPD) = true := by decide

/-- R148. -/
theorem test_clrw : gives (exec .clrw (file 0x5A#8 0x00#8)) (fun t => t.w == 0x00#8 && t.z) = true := by decide

/-- R149. -/
theorem test_comf : gives (exec (.comf 0x20#7 .f) (file 0x00#8 0x13#8)) (fun t => t.ramByte 0x20 == 0xEC#8 && !t.z) = true := by
  decide

/-- R150: the wrap leaves C as it was. -/
theorem test_decf : gives (exec (.decf 0x20#7 .f) (file 0x00#8 0x00#8 (c := true))) (fun t =>
    t.ramByte 0x20 == 0xFF#8 && t.c && !t.z) = true := by decide

/-- R151. -/
theorem test_incf : gives (exec (.incf 0x20#7 .f) (file 0x00#8 0xFF#8)) (fun t =>
    t.ramByte 0x20 == 0x00#8 && flags t == (false, false, true)) = true := by decide

/-- R152. -/
theorem test_iorwf : gives (exec (.iorwf 0x20#7 .w) (file 0x91#8 0x13#8)) (fun t => t.w == 0x93#8 && !t.z) = true := by decide

/-- R153. -/
theorem test_movf : gives (exec (.movf 0x20#7 .w) (file 0x33#8 0x00#8)) (fun t => t.w == 0x00#8 && t.z) = true := by decide

/-- R154: MOVWF STATUS writes Z, DC, C. -/
theorem test_movwf_status : gives (exec (.movwf 0x03#7) (file 0xFD#8 0x00#8)) (fun t =>
    flags t == (true, false, true) && t.nTO && t.nPD) = true := by decide

/-- R154, the source's example: MOVWF OPTION_REG. -/
theorem test_movwf_option : gives (exec (.movwf 0x15#7) { start with w := 0x4F#8, bsr := 1#5 }) (fun t =>
    t.optionReg == 0x4F#8 && t.w == 0x4F#8) = true := by decide

/-- R155, the source's example. -/
theorem test_rlf : gives (exec (.rlf 0x20#7 .w) (file 0x00#8 0b11100110#8)) (fun t =>
    t.w == 0b11001100#8 && t.c && t.ramByte 0x20 == 0b11100110#8) = true := by decide

/-- R156. -/
theorem test_rrf : gives (exec (.rrf 0x20#7 .f) (file 0x00#8 0x01#8 (c := true))) (fun t =>
    t.ramByte 0x20 == 0x80#8 && t.c) = true := by decide

/-- R157: f minus W. -/
theorem test_subwf : gives (exec (.subwf 0x20#7 .f) (file 0x02#8 0x01#8)) (fun t =>
    t.ramByte 0x20 == 0xFF#8 && flags t == (false, false, false)) = true := by decide

/-- R158. -/
theorem test_subwfb : gives (exec (.subwfb 0x20#7 .f) (file 0x1A#8 0x1B#8)) (fun t =>
    t.ramByte 0x20 == 0x00#8 && flags t == (true, true, true)) = true := by decide

/-- R159. -/
theorem test_swapf : gives (exec (.swapf 0x20#7 .w) (file 0x00#8 0xA5#8)) (fun t => t.w == 0x5A#8) = true := by decide

/-- R160. -/
theorem test_xorwf : gives (exec (.xorwf 0x20#7 .f) (file 0xB5#8 0xAF#8)) (fun t => t.ramByte 0x20 == 0x1A#8 && !t.z) = true := by
  decide

/-- R21, R45, D31: a byte of RAM that nothing has written is the unknown content, not 0. -/
theorem test_unwritten_ram (a : Nat) : start.ramByte a = Config.ramUnknown 0 a := rfl

/-! ### Skips and bits -/

/-- R171. -/
theorem test_decfsz : gives (exec (.decfsz 0x20#7 .f) (file 0x00#8 0x01#8)) (fun t =>
    t.ramByte 0x20 == 0x00#8 && t.pc == 0x102#15 && !t.z && t.cycles == 2) = true := by decide

/-- R171, D25. -/
theorem test_decfsz_pcl : exec (.decfsz 0x02#7 .f) start = .refused .skipOnPCL := rfl

/-- R172. -/
theorem test_incfsz : gives (exec (.incfsz 0x20#7 .w) (file 0x00#8 0xFE#8)) (fun t =>
    t.w == 0xFF#8 && t.pc == 0x101#15 && t.ramByte 0x20 == 0xFE#8) = true := by decide

/-- R181. -/
theorem test_bcf : gives (exec (.bcf 0x20#7 7#3) (file 0x00#8 0xC7#8)) (fun t => t.ramByte 0x20 == 0x47#8) = true := by decide

/-- R182, R180: BSF STATUS, 0 sets the carry; bits 4:3 cannot be set. -/
theorem test_bsf_status : gives (exec (.bsf 0x03#7 0#3) (file 0x00#8 0x00#8)) (fun t => flags t == (true, false, false)) = true := by
  decide

/-- R190. -/
theorem test_btfsc : gives (exec (.btfsc 0x20#7 1#3) (file 0x00#8 0xFD#8)) (fun t => t.pc == 0x102#15 && t.cycles == 2) = true := by
  decide

/-- R191. -/
theorem test_btfss : gives (exec (.btfss 0x20#7 7#3) (file 0x00#8 0x7F#8)) (fun t => t.pc == 0x101#15 && t.cycles == 1) = true := by
  decide

/-! ### Literals -/

/-- R200. -/
theorem test_addlw : gives (exec (.addlw 0x01#8) (file 0xFF#8 0x00#8)) (fun t => t.w == 0x00#8 && flags t == (true, true, true)) = true := by
  decide

/-- R201. -/
theorem test_andlw : gives (exec (.andlw 0x0F#8) (file 0xF0#8 0x00#8)) (fun t => t.w == 0x00#8 && t.z) = true := by decide

/-- R202. -/
theorem test_iorlw : gives (exec (.iorlw 0x35#8) (file 0x9A#8 0x00#8)) (fun t => t.w == 0xBF#8 && !t.z) = true := by decide

/-- R203. -/
theorem test_movlb : gives (exec (.movlb 31#5) start) (fun t => t.bsr == 0x1F#5 && t.pc == 0x101#15) = true := by decide

/-- R204. -/
theorem test_movlp : gives (exec (.movlp 0x7F#7) start) (fun t => t.pclath == 0x7F#7 && t.pc == 0x101#15) = true := by decide

/-- R205, the source's example; Z stays. -/
theorem test_movlw : gives (exec (.movlw 0x5A#8) (file 0x00#8 0x00#8 (z := true))) (fun t => t.w == 0x5A#8 && t.z) = true := by
  decide

/-- R206: k minus W. -/
theorem test_sublw : gives (exec (.sublw 0x02#8) (file 0x03#8 0x00#8)) (fun t => t.w == 0xFF#8 && flags t == (false, false, false)) = true := by
  decide

/-- R207. -/
theorem test_xorlw : gives (exec (.xorlw 0xAF#8) (file 0xB5#8 0x00#8)) (fun t => t.w == 0x1A#8 && !t.z) = true := by decide

/-! ### Control -/

/-- R221: the wrap below zero. -/
theorem test_bra : gives (exec (.bra 0x100#9) { start with pc := 0x0010#15 }) (fun t => t.pc == 0x7F11#15 && t.cycles == 2) = true := by
  decide

/-- R222. -/
theorem test_brw : gives (exec .brw { start with w := 0xFF#8, pc := 0x7FF0#15 }) (fun t => t.pc == 0x00F0#15) = true := by decide

/-- R223: PCLATH<2:0> are ignored, the full return address is pushed. -/
theorem test_call : gives (exec (.call 0x123#11) { start with pclath := 0x18#7 }) (fun t =>
    t.pc == 0x1923#15 && t.stkptr == 0x00#5 && entryAt t 0 == 0x0101#15) = true := by decide

/-- R223, R32: the seventeenth push resets the device. -/
theorem test_call_full : gives (exec (.call 0x123#11) { start with stkptr := 0x0F#5 }) (fun t =>
    t.pc == 0x0000#15 && t.stkptr == 0x1F#5 && t.pcon.stkovf) = true := by decide

/-- R224. -/
theorem test_callw : gives (exec .callw { start with pclath := 0x12#7, w := 0x34#8 }) (fun t =>
    t.pc == 0x1234#15 && entryAt t 0 == 0x0101#15) = true := by decide

/-- R225. -/
theorem test_goto : gives (exec (.goto 0x123#11) { start with pclath := 0x07#7 }) (fun t => t.pc == 0x0123#15) = true := by decide

/-- R226, R304. -/
theorem test_retfie : gives (exec .retfie { (start.setStackEntry 0#5 0x0123#15) with
      stkptr := 0x00#5, shadow := { start.shadow with wreg := 0x77#8, status := 0b100#3 } }) (fun t =>
    t.pc == 0x0123#15 && t.w == 0x77#8 && flags t == (false, false, true) && t.intcon == 0x80#8) = true := by decide

/-- R227: Z is not affected. -/
theorem test_retlw : gives (exec (.retlw 0x00#8) { (start.setStackEntry 0#5 0x0123#15) with stkptr := 0x00#5 }) (fun t =>
    t.pc == 0x0123#15 && t.w == 0x00#8 && !t.z && t.stkptr == 0x1F#5) = true := by decide

/-- R228: an empty stack resets the device; STVREN = 0 is refused. -/
theorem test_return_empty : gives (exec .ret start) (fun t => t.pc == 0x0000#15 && t.pcon.stkunf) = true
    ∧ exec .ret { start with config := { start.config with stvren := false } } = .refused .stackWrap := ⟨by decide, rfl⟩

/-! ### Inherent instructions -/

/-- R240. -/
theorem test_clrwdt : gives (exec .clrwdt { start with nTO := false, nPD := false, wdtRunning := true }) (fun t =>
    t.nTO && t.nPD && !t.wdtRunning) = true := by decide

/-- R241. -/
theorem test_nop : gives (exec .nop { start with pc := 0x7FFF#15 }) (fun t => t.pc == 0x0000#15) = true := by decide

/-- R242. -/
theorem test_option : gives (exec .optionW { start with w := 0x4F#8, bsr := 7#5 }) (fun t =>
    t.optionReg == 0x4F#8 && t.bsr == 7#5) = true := by decide

/-- R243. -/
theorem test_reset : gives (exec .reset { start with w := 0x55#8, c := true, fsr0 := 0x1234#16, bsr := 3#5 }) (fun t =>
    t.pc == 0x0000#15 && !t.pcon.nRI && t.w == 0x55#8 && t.c && t.fsr0 == 0x0034#16 && t.bsr == 0#5) = true := by decide

/-- R244. -/
theorem test_sleep : gives (exec .sleep { start with nTO := false }) (fun t =>
    t.nTO && !t.nPD && t.asleep && t.pc == 0x101#15) = true := by decide

/-- R244, R312: a NOP when an enabled flag is pending, whatever GIE. -/
theorem test_sleep_pending : gives (exec .sleep { start with nTO := false, intcon := 0x24#8 }) (fun t =>
    !t.nTO && t.nPD && !t.asleep && t.pc == 0x101#15) = true := by decide

/-- R245, R36: under the mask. -/
theorem test_tris : gives (exec (.tris 5#3) { start with w := 0xC0#8 }) (fun t => t.trisa == 0x08#8) = true
    ∧ gives (exec (.tris 6#3) { start with w := 0xFF#8 }) (fun t => t.trisb == 0xF0#8) = true := by decide

/-! ### Compiler-optimized instructions -/

/-- R261: a negative literal, and the wrap. -/
theorem test_addfsr : gives (exec (.addfsr .fsr0 0x20#6) { start with fsr0 := 0x0010#16 }) (fun t => t.fsr0 == 0xFFF0#16) = true := by
  decide

/-- R262. -/
theorem test_moviw_preinc : gives (exec (.moviwMod .fsr0 .preInc) { start with
      fsr0 := 0x0021#16, ram := [(0x20, 0xA0#8), (0x21, 0xA1#8), (0x22, 0x00#8)] }) (fun t =>
    t.w == 0x00#8 && t.z && t.fsr0 == 0x0022#16) = true := by decide

/-- R262: the low byte of program word 0x7FFF, wrapped, erased; two cycles. -/
theorem test_moviw_predec_program : gives (exec (.moviwMod .fsr0 .preDec) start) (fun t =>
    t.w == 0xFF#8 && t.fsr0 == 0xFFFF#16 && t.cycles == 2) = true := by decide

/-- R263. -/
theorem test_moviw_indexed : gives (exec (.moviwIdx .fsr0 0x3F#6) { start with fsr0 := 0x0040#16, ram := [(0x3F, 0x3F#8)] })
    (fun t => t.w == 0x3F#8 && t.fsr0 == 0x0040#16) = true := by decide

/-- R264. -/
theorem test_movwi_postdec : gives (exec (.movwiMod .fsr1 .postDec) { start with w := 0x44#8, fsr1 := 0x0021#16 }) (fun t =>
    t.ramByte 0x21 == 0x44#8 && t.fsr1 == 0x0020#16 && !t.z) = true := by decide

/-- R265: the linear address 0x2050 is bank 1, offset 0x20. -/
theorem test_movwi_indexed : gives (exec (.movwiIdx .fsr1 0#6) { start with w := 0x77#8, fsr1 := 0x2050#16 }) (fun t =>
    t.ramByte 0x0A0 == 0x77#8) = true := by decide

/-! ### The machine -/

/-- How a word is run from reset. -/
theorem test_withFetchWord : gives (step (State.reset.withFetchWord 16 0x305A)) (fun t => t.w == 0x5A#8 && t.pc == 0x0001#15) = true := by
  decide

/-- R303. -/
theorem test_interrupt_entry : gives (step { start with intcon := 0xA4#8, w := 0x11#8, c := true }) (fun t =>
    t.pc == 0x0004#15 && t.intcon == 0x24#8 && entryAt t 0 == 0x0100#15 && t.shadow.wreg == 0x11#8
      && t.shadow.status == 0b001#3) = true := by decide

/-! ### Witnesses -/

theorem witness_DecodeInvertsEncode : (Instr.tris 7#3).wellFormed = true := by decide

theorem witness_DecodedWordsEncodeBack : decode 0x0103#14 = .ok .clrw ∧ decode 0x3FFF#14 = .ok (.movwiIdx .fsr1 0x3F#6) := by
  decide

/-- A state that stands at a program word. -/
def at_ (w : ProgWord) : State := { start with prog := [(0x100, w)] }

theorem witness_UnassignedWordsAreRefused :
    (TurnOf (at_ 0x0002#14) .cpu (at_ 0x0002#14) ∧ (at_ 0x0002#14).asleep = false ∧ (at_ 0x0002#14).wake = .settled
      ∧ (gieBit (at_ 0x0002#14) && pendingFlags (at_ 0x0002#14)) = false
      ∧ unassignedWord ((at_ 0x0002#14).progRead (at_ 0x0002#14).pc).toNat = true)
    ∧ unassignedWord ((at_ 0x017F#14).progRead (at_ 0x017F#14).pc).toNat = true :=
  ⟨⟨.inl ⟨rfl, rfl, rfl⟩, rfl, rfl, by decide, by decide⟩, by decide⟩

theorem witness_AddwfAndAddwfcAdd : locateFile start 0x20#7 = .ok (.ram 0x20) := by decide
theorem witness_SubwfAndSubwfbSubtract : locateFile start 0x6F#7 = .ok (.ram 0x6F) := by decide
theorem witness_LogicOnFilesSetsZ : locateFile { start with bsr := 6#5 } 0x2F#7 = .ok (.ram 0x32F) := by decide
theorem witness_ShiftsMoveOnePlace : locateFile { start with fsr0 := 0x21EF#16 } 0x00#7 = .ok (.ram 0x32F) := by decide
theorem witness_RotatesGoThroughCarry : locateFile start 0x7F#7 = .ok (.ram 0x7F) := by decide
theorem witness_DecfAndIncfCount : locateFile start 0x02#7 = .ok .pcl := by decide
theorem witness_MovfAndSwapfMove : locateFile start 0x03#7 = .ok .status := by decide
theorem witness_ClrfAndMovwfStore : locateFile { start with bsr := 31#5 } 0x6F#7 = .ok .tosh := by decide
theorem witness_DecfszAndIncfszCountAndSkip :
    locateFile start 0x09#7 = .ok .wreg ∧ Loc.wreg ≠ .pcl ∧ locateFile start 0x02#7 = .ok .pcl := by decide
theorem witness_BcfAndBsfChangeOneBit : locateFile start 0x0B#7 = .ok .intcon := by decide
theorem witness_BtfscAndBtfssSkip : locateFile { start with fsr1 := 0x8000#16 } 0x01#7 = .ok (.prog 0#15) := by decide

theorem witness_IndirectIndfIsRefused :
    (start.fsr0.toNat ≤ 0x0FFF ∧ start.fsr0.toNat % 128 ≤ 1)
    ∧ ((0x0F81#16).toNat ≤ 0x0FFF ∧ (0x0F81#16).toNat % 128 ≤ 1)
    ∧ (BitVec.ofInt 16 (((0x0020#16).toNat : Int) + (0x20#6).toInt)).toNat % 128 ≤ 1
    ∧ ((pointerUsed .preInc 0xFFFF#16).toNat ≤ 0x0FFF ∧ (pointerUsed .preInc 0xFFFF#16).toNat % 128 ≤ 1) := by decide

theorem witness_CallAndCallwPushAndJump :
    ({ start with stkptr := 0x0E#5 } : State).stkptr ≠ 0x0F#5 ∧ ({ start with stkptr := 0x0F#5 } : State).stkptr = 0x0F#5 := by
  decide

theorem witness_ReturnAndRetlwPop :
    ({ start with stkptr := 0x00#5 } : State).stkptr ≠ 0x1F#5 ∧ start.stkptr = 0x1F#5 := by decide

theorem witness_RetfieRestoresAndEnables :
    ({ start with stkptr := 0x1E#5 } : State).stkptr ≠ 0x1F#5 ∧ start.stkptr = 0x1F#5 := by decide

/-- A state with an interrupt to take and the stack pointer given. -/
def interrupted (p : BitVec 5) : State := { start with intcon := 0xA4#8, stkptr := p }

theorem witness_StackTroubleResetsOrRefuses :
    ((interrupted 0x0F#5).stkptr = 0x0F#5 ∧ (interrupted 0x0F#5).config.stvren = true)
    ∧ ({ start with config := { start.config with stvren := false } } : State).config.stvren = false
    ∧ start.stkptr = 0x1F#5
    ∧ (TurnOf (interrupted 0x0F#5) .cpu (interrupted 0x0F#5) ∧ (interrupted 0x0F#5).asleep = false
      ∧ (interrupted 0x0F#5).wake = .settled ∧ gieBit (interrupted 0x0F#5) = true
      ∧ pendingFlags (interrupted 0x0F#5) = true) :=
  ⟨⟨rfl, rfl⟩, rfl, rfl, .inl ⟨rfl, rfl, rfl⟩, rfl, rfl, by decide, by decide⟩

theorem witness_SleepStopsOrActsAsNop :
    pendingFlags { start with intcon := 0x24#8 } = true ∧ pendingFlags { start with intcon := 0xBF#8 - 0x3F#8 } = false := by
  decide

theorem witness_MoviwWithUpdateLoads :
    locateFsr .pic1509 (0x1FFF#16 + 1) = .ok (.ram 0x20) ∧ locateFsr .pic1509 (0x0003#16 - 1) = .ok .pcl
    ∧ locateFsr .pic1509 0x0FFF#16 = .ok (.ram 0x7F) ∧ locateFsr .pic1509 0x7FFF#16 = .ok .void := by decide +kernel

theorem witness_MoviwIndexedLoads :
    locateFsr .pic1508 (BitVec.ofInt 16 (((0x20F0#16).toNat : Int) + (0x3F#6).toInt)) = .ok (.ram 0x16F) := by decide +kernel

theorem witness_MovwiWithUpdateStores :
    locateFsr .pic1509 (0x0003#16 + 1) = .ok .fsr0l ∧ locateFsr .pic1509 (0x0005#16 - 1) = .ok .fsr0l
    ∧ locateFsr .pic1509 0x8000#16 = .ok (.prog 0#15) := by decide

theorem witness_MovwiIndexedStores :
    locateFsr .pic1509 (BitVec.ofInt 16 (((0x0000#16).toNat : Int) + (0x3F#6).toInt)) = .ok (.prog 0x7FFF#15) := by decide

theorem witness_FileOperandsAreLocated : 2 ≤ (0x02#7).toNat ∧ locateFile start 0x02#7 = .ok .pcl := by decide

/-- Boundary addresses of every clause. -/
theorem witness_DataAddressMap :
    locateData .pic1509 0xF81#12 = .error .indirectINDF ∧ locateData .pic1509 0xF82#12 = .ok .pcl
    ∧ locateData .pic1509 0x08B#12 = .ok .intcon ∧ locateData .pic1509 0x08C#12 = .ok .trisa
    ∧ locateData .pic1509 0x01F#12 = .ok (.platform 0x01F#12) ∧ locateData .pic1508 0x020#12 = .ok (.ram 0x020)
    ∧ locateData .pic1508 0x16F#12 = .ok (.ram 0x16F) ∧ locateData .pic1508 0x1A0#12 = .ok .void
    ∧ locateData .pic1509 0x32F#12 = .ok (.ram 0x32F) ∧ locateData .pic1509 0x330#12 = .ok .void
    ∧ locateData .pic1509 0xEEF#12 = .ok .void ∧ locateData .pic1509 0xF20#12 = .ok (.platform 0xF20#12)
    ∧ locateData .pic1509 0xFEC#12 = .ok (.platform 0xFEC#12) ∧ locateData .pic1509 0xFEF#12 = .ok .tosh
    ∧ locateData .pic1509 0xFF0#12 = .ok (.ram 0x70) ∧ locateData .pic1509 0x097#12 = .ok .wdtcon
    ∧ locateData .pic1509 0xFE4#12 = .ok .statusShad := by decide

/-- Boundary addresses of every clause. -/
theorem witness_FsrAddressMap :
    locateFsr .pic1509 0x0FFF#16 = .ok (.ram 0x7F) ∧ locateFsr .pic1509 0x1000#16 = .ok .void
    ∧ locateFsr .pic1509 0x1FFF#16 = .ok .void ∧ locateFsr .pic1508 0x20EF#16 = .ok (.ram 0x16F)
    ∧ locateFsr .pic1508 0x20F0#16 = .ok .void ∧ locateFsr .pic1509 0x21EF#16 = .ok (.ram 0x32F)
    ∧ locateFsr .pic1509 0x21F0#16 = .ok .void ∧ locateFsr .pic1509 0x7FFF#16 = .ok .void
    ∧ locateFsr .pic1509 0x8000#16 = .ok (.prog 0#15) := by decide +kernel

theorem witness_CoreAndCommonAreSharedByBanks :
    (2 ≤ (0x0B#7).toNat ∧ (0x0B#7).toNat ≤ 0x0B) ∧ 0x70 ≤ (0x70#7).toNat := by decide

theorem witness_ReadsLoadTheRegister : locateFile { start with bsr := 31#5 } 0x6E#7 = .ok .tosl := by decide

theorem witness_StoreThenLoad :
    locateFile start 0x20#7 = .ok (.ram 0x20) ∧ locateFile start 0x21#7 = .ok (.ram 0x21) ∧ 0x20 ≠ 0x21 := by decide

theorem witness_NonStoringFormsKeepRam :
    withoutFileOperand (.moviwMod .fsr0 .preDec) = true
    ∧ gives (exec (.moviwMod .fsr0 .preDec) start) (fun _ => true) = true
    ∧ gives (exec (.btfss 0x20#7 0#3) (file 0x00#8 0x00#8)) (fun _ => true) = true
    ∧ Instr.incfsz 0x20#7 .w ∈ resultToW 0x20#7 ∧ gives (exec (.incfsz 0x20#7 .w) (file 0x00#8 0x00#8)) (fun _ => true) = true := by
  decide

theorem witness_StepRunsTheDecodedInstruction :
    TurnOf (at_ 0x0000#14) .cpu (at_ 0x0000#14) ∧ (at_ 0x0000#14).asleep = false
    ∧ decode ((at_ 0x0000#14).progRead (at_ 0x0000#14).pc) = .ok .nop ∧ (at_ 0x0000#14).wake = .settled
    ∧ (gieBit (at_ 0x0000#14) && pendingFlags (at_ 0x0000#14)) = false
    ∧ ({ at_ 0x0000#14 with wake := .resumeFirst } : State).wake = .resumeFirst :=
  ⟨.inl ⟨rfl, rfl, rfl⟩, rfl, by decide, rfl, by decide, rfl⟩

theorem witness_PlacedWordIsRunNext :
    ProgMemory.wf State.reset.config.device State.reset.prog = true ∧ decode (BitVec.ofNat 14 0x3FFF) = .ok (.movwiIdx .fsr1 0x3F#6)
    ∧ State.reset.progIndex 1#15 ≠ State.reset.progIndex State.reset.pc := by decide

theorem witness_InterruptEntryComesFirst :
    TurnOf (interrupted 0x0E#5) .cpu (interrupted 0x0E#5) ∧ (interrupted 0x0E#5).asleep = false
    ∧ (interrupted 0x0E#5).wake = .settled ∧ gieBit (interrupted 0x0E#5) = true ∧ pendingFlags (interrupted 0x0E#5) = true
    ∧ (interrupted 0x0E#5).stkptr ≠ 0x0F#5 ∧ (interrupted 0x0F#5).stkptr = 0x0F#5 :=
  ⟨.inl ⟨rfl, rfl, rfl⟩, rfl, rfl, by decide, by decide, by decide, rfl⟩

/-- A sleeping state with an INTCON. -/
def sleeping (v : Byte) : State := { start with asleep := true, intcon := v }

theorem witness_SleepingCpuWaitsAndWakes :
    TurnOf (sleeping 0x00#8) .cpu (sleeping 0x00#8) ∧ (sleeping 0x00#8).asleep = true ∧ pendingFlags (sleeping 0x00#8) = false
    ∧ (pendingFlags (sleeping 0x24#8) = true ∧ gieBit (sleeping 0x24#8) = false)
    ∧ (pendingFlags (sleeping 0xA4#8) = true ∧ gieBit (sleeping 0xA4#8) = true) :=
  ⟨.inl ⟨rfl, rfl, rfl⟩, rfl, by decide, by decide, by decide⟩

/-- A state in which the word `w` stands after SLEEP and a wake-up with GIE = 1 has just happened. -/
def woken (w : ProgWord) (p : BitVec 5) (intcon : Byte) : State :=
  { at_ w with wake := .resumeFirst, stkptr := p, intcon := intcon }

/-- NOP; a SLEEP with the flag still pending, and one without; CALL on a full stack; and the entry that is due. -/
theorem witness_InstructionAfterSleepThenEntry :
    (∃ t, TurnOf (woken 0x0000#14 0x1F#5 0xA4#8) .cpu (woken 0x0000#14 0x1F#5 0xA4#8)
      ∧ (woken 0x0000#14 0x1F#5 0xA4#8).asleep = false ∧ (woken 0x0000#14 0x1F#5 0xA4#8).wake = .resumeFirst
      ∧ decode ((woken 0x0000#14 0x1F#5 0xA4#8).progRead 0x0100#15) = .ok .nop
      ∧ step (woken 0x0000#14 0x1F#5 0xA4#8) = .next t)
    ∧ (∃ t, decode ((woken 0x0063#14 0x1F#5 0xA4#8).progRead 0x0100#15) = .ok .sleep
      ∧ pendingFlags (woken 0x0063#14 0x1F#5 0xA4#8) = true ∧ step (woken 0x0063#14 0x1F#5 0xA4#8) = .next t)
    ∧ (∃ t, decode ((woken 0x0063#14 0x1F#5 0x80#8).progRead 0x0100#15) = .ok .sleep
      ∧ pendingFlags (woken 0x0063#14 0x1F#5 0x80#8) = false ∧ step (woken 0x0063#14 0x1F#5 0x80#8) = .next t)
    ∧ (∃ t, decode ((woken 0x2000#14 0x0F#5 0x80#8).progRead 0x0100#15) = .ok (.call 0#11)
      ∧ (woken 0x2000#14 0x0F#5 0x80#8).stkptr = 0x0F#5 ∧ step (woken 0x2000#14 0x0F#5 0x80#8) = .next t)
    ∧ TurnOf { start with wake := .entryDue } .cpu { start with wake := .entryDue } ∧ start.stkptr ≠ 0x0F#5 :=
  ⟨⟨_, .inl ⟨rfl, rfl, rfl⟩, rfl, rfl, by decide, rfl⟩, ⟨_, by decide, by decide, rfl⟩, ⟨_, by decide, by decide, rfl⟩,
    ⟨_, by decide, rfl, rfl⟩, .inl ⟨rfl, rfl, rfl⟩, by decide⟩

/-- R312: a SLEEP that acts as a NOP after the wake-up leaves the entry due. -/
theorem test_sleep_after_wake : gives (step (woken 0x0063#14 0x1F#5 0xA4#8)) (fun t =>
    t.wake == .entryDue && !t.asleep && t.pc == 0x0101#15) = true := by decide

theorem witness_PlatformSetsFlagsAndWakes :
    TurnOf { start with schedule := [.platform .tmr0Overflow] } (.platform .tmr0Overflow) start :=
  .inr ⟨[], rfl, rfl⟩

/-- A state whose turn is a Watchdog time-out. -/
def timeout (m : WdtMode) (asleep : Bool) : State :=
  { start with schedule := [.wdtTimeout], asleep := asleep, config := { start.config with wdtMode := m } }

theorem witness_WatchdogTimeoutResetsOrWakes :
    (∃ s', TurnOf (timeout .awakeOnly true) .wdtTimeout s' ∧ watchdogEnabled s' = false)
    ∧ (∃ s', TurnOf (timeout .awakeOnly false) .wdtTimeout s' ∧ watchdogEnabled s' = true ∧ s'.asleep = false)
    ∧ (∃ s', TurnOf (timeout .always true) .wdtTimeout s' ∧ watchdogEnabled s' = true ∧ s'.asleep = true)
    ∧ (∃ s', TurnOf { timeout .software true with schedule := [.wdtRun] } .wdtRun s' ∧ watchdogEnabled s' = false)
    ∧ ∃ s', TurnOf { timeout .software true with schedule := [.wdtRun], wdtcon := 0x17#8 } .wdtRun s'
      ∧ watchdogEnabled s' = true :=
  ⟨⟨_, .inr ⟨[], rfl, rfl⟩, rfl⟩, ⟨_, .inr ⟨[], rfl, rfl⟩, rfl, rfl⟩, ⟨_, .inr ⟨[], rfl, rfl⟩, rfl, rfl⟩,
    ⟨_, .inr ⟨[], rfl, rfl⟩, by decide⟩, ⟨_, .inr ⟨[], rfl, rfl⟩, by decide⟩⟩

theorem witness_ExternalResetsByCause :
    TurnOf { start with schedule := [.externalReset .mclr] } (.externalReset .mclr) start
    ∧ TurnOf { start with schedule := [.externalReset .powerOn] } (.externalReset .powerOn) start
    ∧ TurnOf { start with schedule := [.externalReset .brownOut] } (.externalReset .brownOut) start :=
  ⟨.inr ⟨[], rfl, rfl⟩, .inr ⟨[], rfl, rfl⟩, .inr ⟨[], rfl, rfl⟩⟩

theorem witness_StepKeepsInv : ∃ t, Inv start ∧ step start = .next t :=
  ⟨_, ⟨rfl, rfl, rfl, rfl, rfl, fun h => nomatch h⟩, rfl⟩

theorem witness_StepKeepsProgramAndConfig : ∃ t, step (at_ 0x0001#14) = .next t := ⟨_, rfl⟩

theorem witness_OnlyClrwdtAndSleepChangeToPd :
    ∃ t, Instr.movwf 0x03#7 ≠ .clrwdt ∧ Instr.movwf 0x03#7 ≠ .sleep ∧ exec (.movwf 0x03#7) start = .next t :=
  ⟨_, by decide, by decide, rfl⟩

/-- Each clause: an unassigned word; DECFSZ at PCL; MOVF INDF0 and MOVIW with FSR0 = 0; RETURN on the empty stack, CALL and
interrupt entry on the full one. -/
theorem witness_StepStopsOnlyBySpecRefusals :
    step (at_ 0x0002#14) = .refused (.unassignedOpcode 0x0002#14) ∧ step (at_ 0x0B82#14) = .refused .skipOnPCL
    ∧ step (at_ 0x0880#14) = .refused .indirectINDF ∧ step (at_ 0x0012#14) = .refused .indirectINDF
    ∧ step { at_ 0x0008#14 with config := { start.config with stvren := false } } = .refused .stackWrap
    ∧ step { at_ 0x2000#14 with config := { start.config with stvren := false }, stkptr := 0x0F#5 } = .refused .stackWrap
    ∧ step { interrupted 0x0F#5 with config := { start.config with stvren := false } } = .refused .stackWrap :=
  ⟨rfl, rfl, rfl, rfl, rfl, rfl, rfl⟩

theorem witness_InterruptThenRetfieRestores :
    ∃ t h, (interrupted 0x1F#5).schedule = [] ∧ (interrupted 0x1F#5).asleep = false ∧ (interrupted 0x1F#5).wake = .settled
      ∧ gieBit (interrupted 0x1F#5) = true ∧ pendingFlags (interrupted 0x1F#5) = true ∧ (interrupted 0x1F#5).stkptr ≠ 0x0F#5
      ∧ (interrupted 0x1F#5).stkptr ≠ 0x1E#5 ∧ step (interrupted 0x1F#5) = .next t ∧ h.stkptr = t.stkptr
      ∧ entryAt h h.stkptr.toNat = entryAt t t.stkptr.toNat ∧ h.shadow = t.shadow :=
  ⟨_, _, rfl, rfl, rfl, by decide, by decide, by decide, by decide, rfl, rfl, rfl, rfl⟩

theorem witness_ReturnUndoesCall :
    ∃ t h : State, start.stkptr ≠ 0x0F#5 ∧ start.stkptr ≠ 0x1E#5 ∧ exec (.call 0x123#11) start = .next t
      ∧ h.stkptr = t.stkptr ∧ h.stack = t.stack :=
  ⟨_, _, by decide, by decide, rfl, rfl, rfl⟩

end Sys2Proof.Tests
end

section
/-! PROOFS. The statements of `00_scope.md`: the instruction a step runs (R11, R117), the word that `withFetchWord` places
(log 18), and the waiting and waking of a sleeping CPU (R312; log 27). -/

namespace Sys2Proof.Machine

/-! ### An instruction in a step -/

theorem State.fetching_of_settled {s : State} (h : s.wake = .settled) : s.fetching = s := by
  simp [State.fetching, h]

theorem State.fetching_of_resumeFirst {s : State} (h : s.wake = .resumeFirst) :
    s.fetching = { s with wake := .entryDue } := by
  simp [State.fetching, h]

/-- Settles O44: the CPU of either clause fetches, so its step is the instruction's meaning on `s'.fetching`. -/
theorem stepRunsTheDecodedInstruction : Obligations.StepRunsTheDecodedInstruction := by
  intro s s' i ht ha hd
  constructor
  · intro hw hp
    have hr : Runs s s' i := ⟨⟨ht, ha, .inr ⟨hw, hp⟩⟩, hd⟩
    rw [step_of_runs hr, State.fetching_of_settled hw]
  · intro hw
    have hr : Runs s s' i := ⟨⟨ht, ha, .inl hw⟩, hd⟩
    rw [step_of_runs hr, State.fetching_of_resumeFirst hw]

/-! ### Sleep -/

theorem State.wakeUp_of_not_pending {s : State} (hp : pendingFlags s = false) : s.wakeUp = s := by
  simp [State.wakeUp, ← pendingFlags_eq, hp]

theorem State.wakeUp_of_pending {s : State} (ha : s.asleep = true) (hp : pendingFlags s = true) :
    s.wakeUp = { s with asleep := false, wake := if gieBit s then .resumeFirst else .settled } := by
  simp [State.wakeUp, ha, ← pendingFlags_eq, hp, ← gieBit_eq]

theorem step_of_asleep {s s' : State} (ht : TurnOf s .cpu s') (ha : s'.asleep = true) : step s = .next s'.wakeUp := by
  rw [step_of_turn ht]
  simp [takeTurn, cpuStep, ha]

/-- Settles O47: a sleeping CPU's step is `wakeUp`, which the pending flags decide and GIE stages. -/
theorem sleepingCpuWaitsAndWakes : Obligations.SleepingCpuWaitsAndWakes := by
  intro s s' ht ha
  rw [step_of_asleep ht ha]
  refine ⟨fun hp => ?_, fun hp hg => ?_, fun hp hg => ?_⟩
  · rw [State.wakeUp_of_not_pending hp]
  · simp [State.wakeUp_of_pending ha hp, hg]
  · simp [State.wakeUp_of_pending ha hp, hg]

/-! ### Placing a word in program memory

A word that is not listed reads as erased, so an erased word is placed by dropping the cell; that the dropped cell was the
only one at its address is where the canonical form is needed. -/

theorem progPlace_reads_same {m : List (Nat × ProgWord)} (a : Nat) (v : ProgWord) (hm : risingFrom 0 m = true) :
    (cellAt (progPlace m a v) a).getD erasedWord = v := by
  unfold progPlace
  split
  next hv => simp [cellAt_dropCell_same m hm, hv]
  next => simp

theorem cellAt_progPlace_other (m : List (Nat × ProgWord)) {a b : Nat} (v : ProgWord) (h : b ≠ a) :
    cellAt (progPlace m a v) b = cellAt m b := by
  unfold progPlace
  split
  next => exact cellAt_dropCell_other m h
  next => exact cellAt_putCell_other m v h

/-! ### The prepared state -/

/-- The prepared state, written out in numbers. -/
theorem State.readyToRun_eq (s : State) (v : ProgWord) : s.readyToRun v =
    { s with prog := progPlace s.prog (s.progIndex s.pc) v, schedule := [], asleep := false, wake := .settled
             intcon := if gieBit s && pendingFlags s then BitVec.ofNat 8 (s.intcon.toNat % 128) else s.intcon } := by
  have hg : carryBit false ++ s.intcon.extractLsb' 0 7 = BitVec.ofNat 8 (s.intcon.toNat % 128) :=
    setGie_intcon_eq s false
  unfold State.readyToRun
  rw [interruptRequest_eq]
  cases gieBit s && pendingFlags s
  case false => rfl
  case true => simp [State.placeAtPc, State.setGie, State.progIndex, hg]

theorem State.progRead_readyToRun_pc {s : State} (v : ProgWord) (h : ProgMemory.wf s.config.device s.prog = true) :
    (s.readyToRun v).progRead (s.readyToRun v).pc = v := by
  have hrise : risingFrom 0 s.prog = true := by
    simp only [ProgMemory.wf, Bool.and_eq_true] at h
    exact h.1
  rw [State.readyToRun_eq]
  exact progPlace_reads_same (s.progIndex s.pc) v hrise

theorem State.progRead_readyToRun_other (s : State) (v : ProgWord) {a : PC} (h : s.progIndex a ≠ s.progIndex s.pc) :
    (s.readyToRun v).progRead a = s.progRead a := by
  rw [State.readyToRun_eq]
  exact congrArg (·.getD erasedWord) (cellAt_progPlace_other s.prog v h)

/-- With GIE cleared no interrupt is requested. -/
theorem State.interruptRequest_setGie_false (s : State) : (s.setGie false).interruptRequest = false := by
  have hg : (s.setGie false).gie = false :=
    Laws.bit_above_low_field (carryBit false) (s.intcon.extractLsb' 0 7) 7 le_rfl
  simp [State.interruptRequest, hg]

/-- The prepared state has no interrupt to take: either there was no request, or GIE is cleared. -/
theorem State.interruptRequest_readyToRun (s : State) (v : ProgWord) : (s.readyToRun v).interruptRequest = false := by
  have hsame : (s.readyToRun v).interruptRequest
      = (if s.interruptRequest then s.setGie false else s).interruptRequest := rfl
  rw [hsame]
  split
  next => exact s.interruptRequest_setGie_false
  next h => simpa using h

/-- The CPU of the prepared state moves next, and fetches. -/
theorem fetches_readyToRun (s : State) (v : ProgWord) : Fetches (s.readyToRun v) (s.readyToRun v) :=
  ⟨.inl ⟨rfl, rfl, rfl⟩, rfl, .inr ⟨rfl, by rw [← interruptRequest_eq, State.interruptRequest_readyToRun]⟩⟩

/-- Settles O45: the prepared state fetches, and the word at its PC is the one placed. -/
theorem placedWordIsRunNext : Obligations.PlacedWordIsRunNext := by
  intro s nbits w i hwf hd u
  have hread : u.progRead u.pc = BitVec.ofNat 14 w := State.progRead_readyToRun_pc _ hwf
  have hruns : Runs u u i := ⟨fetches_readyToRun s _, by rw [hread, hd]⟩
  have hsettled : u.fetching = u := State.fetching_of_settled rfl
  have hframe := s.readyToRun_eq (BitVec.ofNat 14 w)
  refine ⟨?_, hread, fun a ha => State.progRead_readyToRun_other s _ ha, ?_⟩
  · rw [step_of_runs hruns, hsettled]
  · have hprog : u.prog = progPlace s.prog (s.progIndex s.pc) (BitVec.ofNat 14 w) := congrArg State.prog hframe
    rw [hprog]
    exact hframe

end Sys2Proof.Machine
end

section
/-! PROOFS. The statements of `10_state.md`: the state after reset (R45), the invariant and its preservation (R36, R37,
R71, R74, R312), nTO and nPD (R22, R24), the data map (R40, R73 to R77), and a call with its return (R31, R32, R286). -/

namespace Sys2Proof.Machine

/-! ### The state after reset -/

/-- Bits 7 to 1 of PCON after power-on; bit 0 is the free value of log 6, here any Boolean. -/
theorem pcon_powerOn_bits : ∀ (nBOR : Bool) (k : Fin 8), k ≠ 0 →
    bitOf ({ Pcon.powerOn 0 with nBOR := nBOR } : Pcon).toByte k = bitOf 0b00011100#8 k := by
  decide

/-- Settles O52: every register but PCON is a literal of `State.reset`; PCON holds one unknown bit. -/
theorem resetStateValues : Obligations.ResetStateValues := by
  have hstatus : readLoc State.reset .status = 0b00011000#8 := by decide
  have hpcon : ∀ k : Fin 8, k ≠ 0 → bitOf (readLoc State.reset .pcon) k = bitOf 0b00011100#8 k :=
    pcon_powerOn_bits (Config.nBorUnknown 0)
  exact ⟨rfl, rfl, hstatus, rfl, rfl, rfl, rfl, rfl, rfl, hpcon, rfl, rfl, rfl, rfl, rfl, rfl, rfl⟩

/-- Settles O53: both memories are empty, and the reset values have the fixed bits. -/
theorem resetMeetsInv : Obligations.ResetMeetsInv where
  ram_wf := reset_memory_wf.1
  prog_wf := reset_memory_wf.2
  trisa_fixed := by decide
  trisb_fixed := by decide
  wdtcon_fixed := by decide
  asleep_settled := fun _ => rfl

/-! ### What a write keeps of the invariant -/

theorem trisa_write_fixed : ∀ v : Byte, ((v &&& trisaWritable) ||| trisaFixedOnes) &&& 0xC8#8 = 0x08#8 := by decide

theorem trisb_write_fixed (v : Byte) : (v &&& trisbWritable) &&& 0x0F#8 = 0x00#8 := by
  rw [BitVec.and_assoc]
  exact BitVec.and_zero

theorem wdtcon_write_fixed (v : Byte) : (v &&& wdtconWritable) &&& 0xC0#8 = 0x00#8 := by
  rw [BitVec.and_assoc]
  exact BitVec.and_zero

theorem writeLoc_trisa_fixed {s : State} (loc : Loc) (v : Byte) (affects : Bool) (h : s.trisa &&& 0xC8#8 = 0x08#8) :
    (writeLoc s loc v affects).trisa &&& 0xC8#8 = 0x08#8 := by
  cases loc with
  | trisa => exact trisa_write_fixed v
  | status => cases affects <;> exact h
  | _ => exact h

theorem writeLoc_trisb_fixed {s : State} (loc : Loc) (v : Byte) (affects : Bool) (h : s.trisb &&& 0x0F#8 = 0x00#8) :
    (writeLoc s loc v affects).trisb &&& 0x0F#8 = 0x00#8 := by
  cases loc with
  | trisb => exact trisb_write_fixed v
  | status => cases affects <;> exact h
  | _ => exact h

theorem writeLoc_wdtcon_fixed {s : State} (loc : Loc) (v : Byte) (affects : Bool) (h : s.wdtcon &&& 0xC0#8 = 0x00#8) :
    (writeLoc s loc v affects).wdtcon &&& 0xC0#8 = 0x00#8 := by
  cases loc with
  | wdtcon => exact wdtcon_write_fixed v
  | status => cases affects <;> exact h
  | _ => exact h

theorem writeLoc_ram_wf {s : State} {loc : Loc} (v : Byte) (affects : Bool)
    (hl : ∀ a, loc = .ram a → ramAddress s.config.device a = true) (h : Memory.wf s.config.device s.ram = true) :
    Memory.wf s.config.device (writeLoc s loc v affects).ram = true := by
  cases loc with
  | ram a => exact Memory.wf_putCell v h (hl a rfl)
  | status => cases affects <;> exact h
  | _ => exact h

/-! ### The invariant, move by move -/

/-- The invariant is a matter of eight fields. -/
theorem Inv.congr {s t : State} (h : Inv s) (hram : t.ram = s.ram) (hprog : t.prog = s.prog) (hconfig : t.config = s.config)
    (htrisa : t.trisa = s.trisa) (htrisb : t.trisb = s.trisb) (hwdtcon : t.wdtcon = s.wdtcon)
    (hsleep : t.asleep = true → t.wake = .settled) : Inv t where
  ram_wf := by rw [hram, hconfig]; exact h.ram_wf
  prog_wf := by rw [hprog, hconfig]; exact h.prog_wf
  trisa_fixed := by rw [htrisa]; exact h.trisa_fixed
  trisb_fixed := by rw [htrisb]; exact h.trisb_fixed
  wdtcon_fixed := by rw [hwdtcon]; exact h.wdtcon_fixed
  asleep_settled := hsleep

/-- The updates that instructions are made of keep the invariant; only a write reaches a field it speaks of. -/
theorem inv_keptByUpdates : KeptByUpdates Inv where
  registers := fun _ _ _ _ _ _ _ _ _ _ _ _ h => h.congr rfl rfl rfl rfl rfl rfl h.asleep_settled
  write := fun s loc v affects hl h =>
    { ram_wf := by rw [writeLoc_config]; exact writeLoc_ram_wf v affects hl h.ram_wf
      prog_wf := by rw [writeLoc_config, writeLoc_prog]; exact h.prog_wf
      trisa_fixed := writeLoc_trisa_fixed loc v affects h.trisa_fixed
      trisb_fixed := writeLoc_trisb_fixed loc v affects h.trisb_fixed
      wdtcon_fixed := writeLoc_wdtcon_fixed loc v affects h.wdtcon_fixed
      asleep_settled := by rw [writeLoc_asleep, writeLoc_wake]; exact h.asleep_settled }
  stack := fun _ _ _ h => h.congr rfl rfl rfl rfl rfl rfl h.asleep_settled
  gie := fun _ _ h => h.congr rfl rfl rfl rfl rfl rfl h.asleep_settled

theorem Inv.warmReset {s : State} (cause : ResetCause) (h : Inv s) : Inv (s.warmReset cause) where
  ram_wf := h.ram_wf
  prog_wf := h.prog_wf
  trisa_fixed := resetMeetsInv.trisa_fixed
  trisb_fixed := resetMeetsInv.trisb_fixed
  wdtcon_fixed := resetMeetsInv.wdtcon_fixed
  asleep_settled := fun _ => rfl

theorem inv_keptByResets : KeptByResets Inv := fun _ cause _ h => h.warmReset cause

/-- Losing the contents leaves the empty RAM, which is in canonical form. -/
theorem Inv.loseContents {s : State} (flags : BitVec 3) (h : Inv s) : Inv (s.loseContents flags) :=
  { h with ram_wf := rfl }

theorem Inv.deviceReset {s : State} (cause : ResetCause) (h : Inv s) : Inv (deviceReset cause s) := by
  have hwarm := h.warmReset cause
  cases cause with
  | powerOn | brownOut => exact hwarm.loseContents _
  | mclr | watchdogTimeout | resetInstruction | stackOverflow | stackUnderflow => exact hwarm

theorem Inv.wakeUp {s : State} (h : Inv s) : Inv s.wakeUp := by
  unfold State.wakeUp
  split
  · exact h.congr rfl rfl rfl rfl rfl rfl (fun ha => nomatch ha)
  · exact h

theorem Inv.enterSleep {s : State} (h : Inv s) : Inv s.enterSleep :=
  h.congr rfl rfl rfl rfl rfl rfl fun _ => rfl

theorem Inv.platformEvent {s : State} (e : PlatformEvent) (h : Inv s) : Inv (s.platformEvent e) := by
  cases e <;> exact h.congr rfl rfl rfl rfl rfl rfl h.asleep_settled

theorem Inv.wdtRun {s : State} (h : Inv s) : Inv s.wdtRun := by
  unfold State.wdtRun
  split
  · exact h.congr rfl rfl rfl rfl rfl rfl h.asleep_settled
  · exact h

theorem Inv.wdtTimeout {s : State} (h : Inv s) : Inv s.wdtTimeout := by
  unfold State.wdtTimeout
  split
  next =>
    split
    · exact h.congr rfl rfl rfl rfl rfl rfl (fun ha => nomatch ha)
    · exact h.deviceReset .watchdogTimeout
  next => exact h

theorem Inv.interruptEntry {s t : State} (ht : interruptEntry s = .next t) (h : Inv s) : Inv t := by
  by_cases hf : s.stkptr = 0x0F#5
  · rw [(interruptEntry_cases s).2 hf, ← stackTrouble_overflow] at ht
    exact KeptByUpdates.trouble inv_keptByResets (.inl rfl) ht h
  · obtain ⟨u, hu, he, -⟩ := (interruptEntry_cases s).1 hf
    obtain rfl : u = t := by
      rw [hu] at ht
      injection ht
    rw [he]
    exact h.congr rfl rfl rfl rfl rfl rfl fun _ => rfl

/-- Every instruction keeps the invariant: CLRWDT and SLEEP by themselves, the others through their updates. -/
theorem Inv.exec {s t : State} {i : Instr} (ht : exec i s = .next t) (h : Inv s) : Inv t := by
  by_cases hc : i = .clrwdt
  · subst hc
    exact KeptByUpdates.next_of ht (h.congr rfl rfl rfl rfl rfl rfl h.asleep_settled)
  · by_cases hsl : i = .sleep
    · subst hsl
      refine KeptByUpdates.next_of ht (inv_keptByUpdates.move _ _ ?_)
      split
      · exact h
      · exact h.enterSleep
    · exact inv_keptByUpdates.exec inv_keptByResets hc hsl ht h

/-- Taking a turn off the schedule keeps the invariant. -/
theorem Inv.turnOf {s s' : State} {a : Turn} (ht : TurnOf s a s') (h : Inv s) : Inv s' := by
  obtain ⟨-, -, rfl⟩ | ⟨rest, -, rfl⟩ := ht
  · exact h
  · exact h.congr rfl rfl rfl rfl rfl rfl h.asleep_settled

/-- Every move of an agent keeps the invariant. -/
theorem Inv.stepTo {s t : State} {a : Turn} (hst : StepTo s t a) (h : Inv s) : Inv t := by
  cases hst with
  | waited ha ht => exact ht ▸ h.wakeUp
  | entered ha ht => exact h.interruptEntry ht
  | ran u i ha hu hd ht =>
    obtain ⟨-, rfl⟩ | ⟨-, rfl⟩ := hu
    · exact h.exec ht
    · have hawake : Inv { s with wake := .entryDue } :=
        h.congr rfl rfl rfl rfl rfl rfl fun hasleep => absurd (ha.symm.trans hasleep) Bool.false_ne_true
      exact hawake.exec ht
  | platform e ht => exact ht ▸ (h.platformEvent e).wakeUp
  | external c ht => exact ht ▸ h.deviceReset c.toCause
  | wdtRun ht => exact ht ▸ h.wdtRun
  | wdtTimeout ht => exact ht ▸ h.wdtTimeout

/-- Settles O54: a step is one move of one agent, and each move keeps the invariant. -/
theorem stepKeepsInv : Obligations.StepKeepsInv := by
  intro s t h hstep
  obtain ⟨a, s', hturn, hst⟩ := step_next hstep
  exact (h.turnOf hturn).stepTo hst

/-! ### nTO and nPD -/

/-- nTO and nPD have these values. -/
def ToPdAre (nTO nPD : Bool) (s : State) : Prop := s.nTO = nTO ∧ s.nPD = nPD

/-- No location holds nTO or nPD for a write: STATUS takes Z, DC and C alone (R24 b). -/
theorem toPdAre_keptByUpdates (nTO nPD : Bool) : KeptByUpdates (ToPdAre nTO nPD) where
  registers := fun _ _ _ _ _ _ _ _ _ _ _ _ h => h
  write := fun s loc v affects _ h => ⟨(writeLoc_nTO s loc v affects).trans h.1, (writeLoc_nPD s loc v affects).trans h.2⟩
  stack := fun _ _ _ h => h
  gie := fun _ _ h => h

/-- The resets that instructions make leave nTO and nPD (R352). -/
theorem toPdAre_keptByResets (nTO nPD : Bool) : KeptByResets (ToPdAre nTO nPD) := by
  rintro s cause (rfl | rfl | rfl) h <;> exact h

/-- Settles O56: every update and every reset that the other instructions are made of keeps both bits. -/
theorem onlyClrwdtAndSleepChangeToPd : Obligations.OnlyClrwdtAndSleepChangeToPd := by
  intro i s t hc hsl ht
  exact (toPdAre_keptByUpdates s.nTO s.nPD).exec (toPdAre_keptByResets s.nTO s.nPD) hc hsl ht ⟨rfl, rfl⟩

/-! ### The data map -/

/-- The two spellings of R74's table. -/
theorem gprOf_eq (dev : Device) (a : Nat) : gprOf dev a = gprImplemented dev (a / 128) (a % 128) := by
  cases dev <;> exact decide_eq_decide.mpr (by omega)

/-- The low seven bits of a data address are its offset. -/
theorem setWidth7_eq_offset (a : DataAddr) : a.setWidth 7 = BitVec.ofNat 7 (a.toNat % 128) := by
  apply BitVec.eq_of_toNat_eq
  rw [BitVec.toNat_setWidth, BitVec.toNat_ofNat, Nat.mod_mod]

/-- Above offset 0x0B there is no core register (R40). -/
theorem coreRegisters_lookup_none : ∀ f : FileAddr, 0x0C ≤ f.toNat → coreRegisters.lookup f = none := by decide

/-- Each offset from 0x02 to 0x0B is a core register (R40). -/
theorem coreRegisters_lookup_some :
    ∀ f : FileAddr, 2 ≤ f.toNat → f.toNat ≤ 0x0B → ∃ loc, coreRegisters.lookup f = some loc := by
  simp only [← Option.isSome_iff_exists]
  decide

/-- A core register is at its offset in every bank (R40). -/
theorem locateData_core {dev : Device} {a : DataAddr} {off : Nat} {loc : Loc} (h2 : 2 ≤ off)
    (h : coreRegisters.lookup (BitVec.ofNat 7 off) = some loc) (hoff : a.toNat % 128 = off) : locateData dev a = .ok loc := by
  subst hoff
  simp only [locateData, setWidth7_eq_offset, h, if_neg (show ¬ a.toNat % 128 ≤ 1 by omega)]

/-- Beyond the core registers, an address is common RAM, general purpose RAM, a named register, or unnamed. -/
theorem locateData_beyond_core (dev : Device) {a : DataAddr} (h : 0x0C ≤ a.toNat % 128) :
    locateData dev a =
      if 0x70 ≤ a.toNat % 128 then .ok (.ram (a.toNat % 128))
      else if gprOf dev a.toNat then .ok (.ram a.toNat)
      else .ok ((namedRegisters.lookup a).getD (unnamedLoc a)) := by
  have hcore : coreRegisters.lookup (a.setWidth 7) = none :=
    coreRegisters_lookup_none _ (by rw [BitVec.toNat_setWidth]; exact h)
  simp only [locateData, hcore, gprOf_eq, if_neg (show ¬ a.toNat % 128 ≤ 1 by omega)]
  cases namedRegisters.lookup a <;> rfl

theorem locateData_common (dev : Device) {a : DataAddr} (h : 0x70 ≤ a.toNat % 128) :
    locateData dev a = .ok (.ram (a.toNat % 128)) := by
  rw [locateData_beyond_core dev (by omega), if_pos h]

/-- General purpose RAM lies at offsets 0x20 to 0x6F of banks 0 to 6 (R74). -/
theorem gprOf_bounds {dev : Device} {a : Nat} (h : gprOf dev a = true) :
    0x20 ≤ a % 128 ∧ a % 128 < 0x70 ∧ a < 0x380 := by
  cases dev <;> simp only [gprOf, decide_eq_true_eq] at h <;> omega

theorem locateData_gpr {dev : Device} {a : DataAddr} (h : gprOf dev a.toNat = true) :
    locateData dev a = .ok (.ram a.toNat) := by
  obtain ⟨hlo, hhi, -⟩ := gprOf_bounds h
  rw [locateData_beyond_core dev (by omega), if_neg (by omega), if_pos h]

/-- The named registers lie apart from the core registers, the common RAM and the banks' general purpose areas (R73). -/
theorem namedRegisters_apart : ∀ p ∈ namedRegisters, 0x0C ≤ p.1.toNat % 128 ∧ p.1.toNat % 128 < 0x70
    ∧ (p.1.toNat % 128 < 0x20 ∨ 0xF00 ≤ p.1.toNat) := by decide

theorem mem_namedRegisters_of_lookup {a : DataAddr} {loc : Loc} (h : namedRegisters.lookup a = some loc) :
    (a, loc) ∈ namedRegisters := by
  obtain ⟨before, after, heq, -⟩ := List.lookup_eq_some_iff.mp h
  rw [heq]
  exact List.mem_append_right _ List.mem_cons_self

theorem locateData_named {dev : Device} {a : DataAddr} {loc : Loc} (h : namedRegisters.lookup a = some loc) :
    locateData dev a = .ok loc := by
  obtain ⟨hcore, hcommon, hgpr⟩ : 0x0C ≤ a.toNat % 128 ∧ a.toNat % 128 < 0x70
      ∧ (a.toNat % 128 < 0x20 ∨ 0xF00 ≤ a.toNat) := namedRegisters_apart _ (mem_namedRegisters_of_lookup h)
  have hram : ¬ gprOf dev a.toNat = true := fun hg => by
    have := gprOf_bounds hg
    omega
  rw [locateData_beyond_core dev hcore, if_neg (by omega), if_neg hram, h]
  rfl

theorem locateData_unnamed {dev : Device} {a : DataAddr} (hcore : 0x0C ≤ a.toNat % 128) (hcommon : a.toNat % 128 < 0x70)
    (hram : gprOf dev a.toNat = false) (hn : ∀ p ∈ namedRegisters, a.toNat ≠ p.1.toNat) :
    locateData dev a = .ok (unnamedLoc a) := by
  have hnone : namedRegisters.lookup a = none :=
    List.lookup_eq_none_iff.mpr fun p hp => bne_iff_ne.mpr fun he => hn p hp (congrArg BitVec.toNat he)
  rw [locateData_beyond_core dev hcore, if_neg (by omega), if_neg (by simp [hram]), hnone]
  rfl

/-- A bank's general purpose area without RAM is nothing (R73, R74; log 9). -/
theorem locateData_void {dev : Device} {a : DataAddr} (hlo : 0x20 ≤ a.toNat % 128) (hhi : a.toNat % 128 < 0x70)
    (hbank : a.toNat < 0xF00) (hram : gprOf dev a.toNat = false) : locateData dev a = .ok .void := by
  have hn : ∀ p ∈ namedRegisters, a.toNat ≠ p.1.toNat := fun p hp => by
    have := namedRegisters_apart p hp
    omega
  rw [locateData_unnamed (by omega) hhi hram hn]
  simp only [unnamedLoc]
  rw [if_pos (by omega)]

/-- Outside those areas, an address without a name is the platform's (R76, R77). -/
theorem locateData_platform {dev : Device} {a : DataAddr} (hcore : 0x0C ≤ a.toNat % 128) (hcommon : a.toNat % 128 < 0x70)
    (harea : a.toNat % 128 < 0x20 ∨ 0xF00 ≤ a.toNat) (hn : a.toNat ∉ namedRegisters.map (·.1.toNat)) :
    locateData dev a = .ok (.platform a) := by
  have hram : gprOf dev a.toNat = false := Bool.eq_false_iff.mpr fun hg => by
    have := gprOf_bounds hg
    omega
  rw [locateData_unnamed hcore hcommon hram fun p hp he => hn (he ▸ List.mem_map_of_mem hp)]
  simp only [unnamedLoc]
  rw [if_neg (by omega)]

/-- Settles O38: one lemma for each kind of location, in the order of the statement. -/
theorem dataAddressMap : Obligations.DataAddressMap := by
  intro dev a
  have core {off : Nat} {loc : Loc} (h2 : 2 ≤ off) (h : coreRegisters.lookup (BitVec.ofNat 7 off) = some loc) :=
    locateData_core (dev := dev) (a := a) h2 h
  have named {b : DataAddr} {loc : Loc} (h : namedRegisters.lookup b = some loc) (hb : a = b) :
      locateData dev a = .ok loc := hb ▸ locateData_named h
  exact ⟨(locateData_cases dev a).1,
    core (by decide) rfl, core (by decide) rfl, core (by decide) rfl, core (by decide) rfl, core (by decide) rfl,
    core (by decide) rfl, core (by decide) rfl, core (by decide) rfl, core (by decide) rfl, core (by decide) rfl,
    locateData_common dev, locateData_gpr,
    named rfl, named rfl, named rfl, named rfl, named rfl, named rfl,
    named rfl, named rfl, named rfl, named rfl, named rfl, named rfl, named rfl, named rfl,
    named rfl, named rfl, named rfl,
    locateData_void, locateData_platform⟩

/-! ### Banks -/

/-- A file operand other than INDF0 and INDF1 is a data address of the bank that BSR selects (R72). -/
theorem locateFile_direct (s : State) {f : FileAddr} (h : 2 ≤ f.toNat) :
    locateFile s f = locateData s.config.device (s.bsr ++ f) := by
  have h0 : f ≠ 0x00#7 := fun he => absurd h (he ▸ by decide)
  have h1 : f ≠ 0x01#7 := fun he => absurd h (he ▸ by decide)
  simp only [locateFile, h0, h1, if_false]

theorem offset_of_bank_append (bank : BitVec 5) (f : FileAddr) : (bank ++ f).toNat % 128 = f.toNat := by
  have := f.isLt
  rw [toNat_append_fields]
  omega

/-- A core register or a byte of common RAM is one location, whatever the bank (R40, R73). -/
theorem exists_shared_location {f : FileAddr} (h : (2 ≤ f.toNat ∧ f.toNat ≤ 0x0B) ∨ 0x70 ≤ f.toNat) :
    ∃ loc, ∀ (dev : Device) (bank : BitVec 5), locateData dev (bank ++ f) = .ok loc := by
  rcases h with ⟨hlo, hhi⟩ | hcommon
  · obtain ⟨loc, hloc⟩ := coreRegisters_lookup_some f hlo hhi
    refine ⟨loc, fun dev bank => locateData_core hlo ?_ (offset_of_bank_append bank f)⟩
    rw [BitVec.ofNat_toNat, BitVec.setWidth_eq, hloc]
  · refine ⟨.ram f.toNat, fun dev bank => ?_⟩
    have hoff := offset_of_bank_append bank f
    rw [locateData_common dev (by omega), hoff]

/-- Settles O40: the location does not depend on the bank, and MOVLB changes the bank and the PC alone. -/
theorem coreAndCommonAreSharedByBanks : Obligations.CoreAndCommonAreSharedByBanks := by
  intro s f k hf
  obtain ⟨loc, hloc⟩ := exists_shared_location hf
  have hdirect : 2 ≤ f.toNat := by omega
  refine ⟨_, loc, rfl, rfl, ?_, ?_⟩
  · rw [locateFile_direct _ hdirect, hloc]
  · rw [locateFile_direct s hdirect, hloc]

/-! ### A call and its return -/

/-- CALL and CALLW on a stack with room push the address of the next instruction. -/
theorem exec_call_pushes {s t : State} {i : Instr} (hi : i = .callw ∨ ∃ k, i = .call k) (hroom : s.stkptr ≠ 0x0F#5)
    (ht : exec i s = .next t) : t.stkptr = s.stkptr + 1 ∧ StackSet s t (s.stkptr.toNat + 1) (s.pc + 1) := by
  obtain ⟨target, hcall⟩ : ∃ target, exec i s = callTo s target := by
    obtain rfl | ⟨k, rfl⟩ := hi
    · exact ⟨_, rfl⟩
    · exact ⟨_, rfl⟩
  obtain ⟨u, hu, hset, hframe⟩ := (callTo_cases s target).1 hroom
  obtain rfl : u = t := by
    rw [hcall, hu] at ht
    injection ht
  exact ⟨by rw [hframe], hset⟩

/-- RETURN on a stack that is not empty pops the selected entry into the PC. -/
theorem exec_ret_pops {s : State} (h : s.stkptr ≠ 0x1F#5) :
    exec .ret s = .next (({ s with stkptr := s.stkptr - 1 } : State).continueAt (entryAt s s.stkptr.toNat) 2) :=
  (returnWith_cases s fun s' => s').1 h

/-- Settles O60: the return pops the entry that the call pushed, and neither touches another entry. -/
theorem returnUndoesCall : Obligations.ReturnUndoesCall := by
  intro s t h i hi hroom hlast ht hptr hstack
  obtain ⟨htptr, hpushed, hothers⟩ := exec_call_pushes hi hroom ht
  have hsel : h.stkptr = s.stkptr + 1 := hptr.trans htptr
  have hnonempty : h.stkptr ≠ 0x1F#5 := by
    rw [hsel]
    bv_omega
  have hslot : h.stkptr.toNat % 16 = (s.stkptr.toNat + 1) % 16 := by
    rw [hsel, BitVec.toNat_add]
    simp
  refine ⟨_, exec_ret_pops hnonempty, ?_, ?_, fun j hj => ?_⟩
  · calc entryAt h h.stkptr.toNat
      _ = entryAt t h.stkptr.toNat := entryAt_congr hstack _
      _ = entryAt t (s.stkptr.toNat + 1) := entryAt_mod t hslot
      _ = s.pc + 1 := hpushed
  · show h.stkptr - 1 = s.stkptr
    rw [hsel, BitVec.add_sub_cancel]
  · exact (entryAt_congr hstack j).trans (hothers j hj)

end Sys2Proof.Machine
end

section
/-! PROOFS. The statements of `20_memory.md`: program memory and the configuration (R41, R44, R89), the FSR space (R75),
file operands and INDF (R72, R78, R79), what a read answers (R76), and what a store changes of RAM (R82, R86, R91). -/

namespace Sys2Proof.Machine

/-! ### Program memory and the configuration -/

/-- Program memory and the configuration are these. -/
def ProgramIs (prog : List (Nat × ProgWord)) (config : ChipConfig) (s : State) : Prop := s.prog = prog ∧ s.config = config

section
variable {prog : List (Nat × ProgWord)} {config : ChipConfig}

/-- No location is in reach of a write to program memory or the configuration (R89). -/
theorem programIs_keptByUpdates : KeptByUpdates (ProgramIs prog config) where
  registers := fun _ _ _ _ _ _ _ _ _ _ _ _ h => h
  write := fun s loc v affects _ h =>
    ⟨(writeLoc_prog s loc v affects).trans h.1, (writeLoc_config s loc v affects).trans h.2⟩
  stack := fun _ _ _ h => h
  gie := fun _ _ h => h

theorem programIs_keptByResets : KeptByResets (ProgramIs prog config) := fun _ _ _ h => h

theorem ProgramIs.deviceReset {s : State} (cause : ResetCause) (h : ProgramIs prog config s) :
    ProgramIs prog config (deviceReset cause s) := by
  cases cause <;> exact h

theorem ProgramIs.wakeUp {s : State} (h : ProgramIs prog config s) : ProgramIs prog config s.wakeUp := by
  unfold State.wakeUp
  split <;> exact h

theorem ProgramIs.platformEvent {s : State} (e : PlatformEvent) (h : ProgramIs prog config s) :
    ProgramIs prog config (s.platformEvent e) := by
  cases e <;> exact h

theorem ProgramIs.wdtRun {s : State} (h : ProgramIs prog config s) : ProgramIs prog config s.wdtRun := by
  unfold State.wdtRun
  split <;> exact h

theorem ProgramIs.wdtTimeout {s : State} (h : ProgramIs prog config s) : ProgramIs prog config s.wdtTimeout := by
  unfold State.wdtTimeout
  split
  next =>
    split
    · exact h
    · exact h.deviceReset .watchdogTimeout
  next => exact h

theorem ProgramIs.interruptEntry {s t : State} (ht : interruptEntry s = .next t) (h : ProgramIs prog config s) :
    ProgramIs prog config t := by
  by_cases hf : s.stkptr = 0x0F#5
  · rw [(interruptEntry_cases s).2 hf, ← stackTrouble_overflow] at ht
    exact KeptByUpdates.trouble programIs_keptByResets (.inl rfl) ht h
  · obtain ⟨u, hu, he, -⟩ := (interruptEntry_cases s).1 hf
    rw [hu] at ht
    exact KeptByUpdates.next_of ht (he ▸ h)

/-- Every instruction: CLRWDT and SLEEP by themselves, the others through their updates. -/
theorem ProgramIs.exec {s t : State} {i : Instr} (ht : exec i s = .next t) (h : ProgramIs prog config s) :
    ProgramIs prog config t := by
  by_cases hc : i = .clrwdt
  · subst hc
    exact KeptByUpdates.next_of ht h
  · by_cases hsl : i = .sleep
    · subst hsl
      refine KeptByUpdates.next_of ht (programIs_keptByUpdates.move _ _ ?_)
      split <;> exact h
    · exact programIs_keptByUpdates.exec programIs_keptByResets hc hsl ht h

theorem ProgramIs.turnOf {s s' : State} {a : Turn} (ht : TurnOf s a s') (h : ProgramIs prog config s) :
    ProgramIs prog config s' := by
  obtain ⟨-, -, rfl⟩ | ⟨rest, -, rfl⟩ := ht <;> exact h

theorem ProgramIs.stepTo {s t : State} {a : Turn} (hst : StepTo s t a) (h : ProgramIs prog config s) :
    ProgramIs prog config t := by
  cases hst with
  | waited ha ht => exact ht ▸ h.wakeUp
  | entered ha ht => exact h.interruptEntry ht
  | ran u i ha hu hd ht => obtain ⟨-, rfl⟩ | ⟨-, rfl⟩ := hu <;> exact ProgramIs.exec ht h
  | platform e ht => exact ht ▸ (h.platformEvent e).wakeUp
  | external c ht => exact ht ▸ h.deviceReset c.toCause
  | wdtRun ht => exact ht ▸ h.wdtRun
  | wdtTimeout ht => exact ht ▸ h.wdtTimeout

end

/-- Settles O55: a step is one move of one agent, and no move reaches either. -/
theorem stepKeepsProgramAndConfig : Obligations.StepKeepsProgramAndConfig := by
  intro s t hstep
  obtain ⟨a, s', hturn, hst⟩ := step_next hstep
  exact ((show ProgramIs s.prog s.config s from ⟨rfl, rfl⟩).turnOf hturn).stepTo hst

/-! ### The FSR space -/

/-- How many bytes of the linear range are implemented: 80 of each bank with RAM, and 16 of bank 6 of the 1509 (R74, R75). -/
def linearBytes : Device → Nat
  | .pic1508 => 240
  | .pic1509 => 496

theorem linearBytes_le (dev : Device) : linearBytes dev ≤ 2480 := by cases dev <;> decide

/-- The linear range lays the banks' general purpose bytes end to end. -/
theorem gprImplemented_linear (dev : Device) (i : Nat) :
    gprImplemented dev (i / 80) (0x20 + i % 80) = decide (i < linearBytes dev) := by
  cases dev <;> exact decide_eq_decide.mpr (by simp only [linearBytes]; omega)

theorem locateLinear_implemented {dev : Device} {i : Nat} (h : i < linearBytes dev) :
    locateLinear dev i = .ram (i / 80 * 128 + 0x20 + i % 80) := by
  simp [locateLinear, gprImplemented_linear, h, Nat.add_assoc]

theorem locateLinear_beyond {dev : Device} {i : Nat} (h : linearBytes dev ≤ i) : locateLinear dev i = .void := by
  simp [locateLinear, gprImplemented_linear, h]

/-- The upper half of the FSR space is program memory. -/
theorem locateFsr_program (dev : Device) {a : FsrAddr} (h : 0x8000 ≤ a.toNat) :
    locateFsr dev a = .ok (.prog (BitVec.ofNat 15 (a.toNat - 0x8000))) := by
  have haddr : a.setWidth 15 = BitVec.ofNat 15 (a.toNat - 0x8000) := by
    apply BitVec.eq_of_toNat_eq
    rw [BitVec.toNat_setWidth, BitVec.toNat_ofNat]
    omega
  simp [locateFsr, fsr_bit15, h, haddr]

/-- The lower half: the data addresses, the linear range, and nothing elsewhere. -/
theorem locateFsr_data_half (dev : Device) {a : FsrAddr} (h : a.toNat < 0x8000) :
    locateFsr dev a =
      if a.toNat ≤ 0x0FFF then locateData dev (BitVec.ofNat 12 a.toNat)
      else if 0x2000 ≤ a.toNat ∧ a.toNat ≤ 0x29AF then .ok (locateLinear dev (a.toNat - 0x2000))
      else .ok .void := by
  have hlow : ¬ 0x8000 ≤ a.toNat := by omega
  simp only [locateFsr, fsr_bit15, hlow, decide_false, Bool.false_eq_true, if_false]
  rfl

theorem locateFsr_linear {dev : Device} {a : FsrAddr} {i : Nat} (ha : a.toNat = 0x2000 + i) (hi : i < linearBytes dev) :
    locateFsr dev a = .ok (.ram (i / 80 * 128 + 0x20 + i % 80)) := by
  have hle := linearBytes_le dev
  have hsub : a.toNat - 0x2000 = i := by omega
  rw [locateFsr_data_half dev (by omega), if_neg (by omega), if_pos (by omega), hsub, locateLinear_implemented hi]

/-- Beyond the implemented bytes there is nothing, in the linear range (log 10) and after it. -/
theorem locateFsr_beyond_linear {dev : Device} {a : FsrAddr} {i : Nat} (ha : a.toNat = 0x2000 + i)
    (hi : linearBytes dev ≤ i) (hdata : a.toNat < 0x8000) : locateFsr dev a = .ok .void := by
  have hsub : a.toNat - 0x2000 = i := by omega
  rw [locateFsr_data_half dev hdata, if_neg (by omega), hsub, locateLinear_beyond hi, ite_self]

theorem locateFsr_gap (dev : Device) {a : FsrAddr} (hlo : 0x1000 ≤ a.toNat) (hhi : a.toNat ≤ 0x1FFF) :
    locateFsr dev a = .ok .void := by
  rw [locateFsr_data_half dev (by omega), if_neg (by omega), if_neg (by omega)]

/-- Settles O39: one lemma for each part of the space; the statement's two sizes are `linearBytes`. -/
theorem fsrAddressMap : Obligations.FsrAddressMap := by
  intro dev a
  have htraditional : a.toNat ≤ 0x0FFF → locateFsr dev a = locateData dev (BitVec.ofNat 12 a.toNat) := fun h => by
    rw [locateFsr_data_half dev (by omega), if_pos h]
  refine ⟨htraditional, locateFsr_gap dev, fun i ha hi => locateFsr_linear ha ?_,
    fun i ha hi hdata => locateFsr_beyond_linear ha ?_ (by omega), locateFsr_program dev⟩
  · cases dev <;> exact hi
  · cases dev <;> exact hi

/-! ### File operands -/

/-- A data address is its bank times 128 plus its offset (R72). -/
theorem bank_append_eq (bank : BitVec 5) (f : FileAddr) : bank ++ f = BitVec.ofNat 12 (bank.toNat * 128 + f.toNat) := by
  apply BitVec.eq_of_toNat_eq
  have := bank.isLt
  have := f.isLt
  rw [toNat_append_fields, BitVec.toNat_ofNat]
  omega

/-- Settles O37: only a pointer can lead to an INDF address, so a direct operand always is a location. -/
theorem fileOperandsAreLocated : Obligations.FileOperandsAreLocated := by
  refine fun s => ⟨rfl, rfl, fun f hf => ⟨?_, ?_⟩⟩
  · rw [locateFile_direct s hf, bank_append_eq]
  · rw [locateFile_direct s hf]
    exact (locateData_cases s.config.device (s.bsr ++ f)).2 (by rw [offset_of_bank_append]; exact hf)

/-! ### INDF addresses through a pointer -/

/-- A refused operand refuses each of the 25 instructions: each is one of the four templates. -/
theorem exec_fileInstructions_refused {s : State} {f : FileAddr} {r : Refusal} (h : locateFile s f = .error r) (d : Dest)
    (b : BitVec 3) : ∀ i ∈ fileInstructions f d b, exec i s = .refused r := by
  obtain ⟨hop, hstore, hskip, hbit⟩ := templates_refuse h
  simp only [fileInstructions, List.forall_mem_cons, List.not_mem_nil, false_imp_iff, implies_true, and_true, exec]
  exact ⟨hop d _, hop d _, hop d _, hop d _, hop d _, hop d _, hstore _, hop d _, hop d _, hop d _,
    hop d _, hop d _, hstore _, hop d _, hop d _, hop d _, hop d _, hop d _, hop d _,
    hskip d _, hskip d _, hop .f _, hop .f _, hbit b _, hbit b _⟩

/-- The address of `k[FSRn]` is the sum modulo 2^16, `k` signed (R260 e). -/
theorem indexed_eq (s : State) (n : FsrSel) (k : BitVec 6) :
    s.indexed n k = BitVec.ofInt 16 ((s.fsr n).toNat + k.toInt) := by
  simp [State.indexed, BitVec.ofInt_add, BitVec.signExtend]

theorem exec_indexedMove_refused {s : State} {n : FsrSel} {k : BitVec 6} {r : Refusal}
    (h : locateFsr s.config.device (s.indexed n k) = .error r) :
    exec (.moviwIdx n k) s = .refused r ∧ exec (.movwiIdx n k) s = .refused r := by
  simp [exec, execMoviwIdx, execMovwiIdx, h]

theorem exec_updatingMove_refused {s : State} {n : FsrSel} {mm : PtrMode} {r : Refusal}
    (h : locateFsr s.config.device (pointerUsed mm (s.fsr n)) = .error r) :
    exec (.moviwMod n mm) s = .refused r ∧ exec (.movwiMod n mm) s = .refused r := by
  simp [exec, execMoviwMod, execMovwiMod, h]

/-- Settles O15: in each form the address is an INDF one, which locating refuses before anything is read or written. -/
theorem indirectIndfIsRefused : Obligations.IndirectIndfIsRefused := by
  have hindf {dev : Device} {a : FsrAddr} (h1 : a.toNat ≤ 0x0FFF) (h2 : a.toNat % 128 ≤ 1) :
      locateFsr dev a = .error .indirectINDF := locateFsr_error.mpr ⟨rfl, h1, h2⟩
  refine ⟨fun s d b h1 h2 => ?_, fun s d b h1 h2 => ?_, fun s n k h1 h2 => ?_, fun s n mm h1 h2 => ?_⟩
  · exact exec_fileInstructions_refused (f := indirectOperand .fsr0) (hindf h1 h2) d b
  · exact exec_fileInstructions_refused (f := indirectOperand .fsr1) (hindf h1 h2) d b
  · exact exec_indexedMove_refused (indexed_eq s n k ▸ hindf h1 h2)
  · exact exec_updatingMove_refused (hindf h1 h2)

/-! ### Reading a register -/

/-- MOVF f, 0 answers, with the byte read in W, and leaves RAM as it was. -/
theorem exec_movf_w {s : State} {f : FileAddr} {loc : Loc} (h : locateFile s f = .ok loc) :
    ∃ t, exec (.movf f .w) s = .next t ∧ t.w = readLoc s loc ∧ ∀ a, t.ramByte a = s.ramByte a := by
  obtain ⟨t, ht, hres⟩ := byteOp_ok .w aluZ h
  subst hres
  exact ⟨_, ht, rfl, fun _ => rfl⟩

/-- A field narrower than a byte reads with zeros above it. -/
theorem toNat_widened {n : Nat} (x : BitVec n) (h : n ≤ 8) : (x.setWidth 8).toNat = x.toNat :=
  BitVec.toNat_setWidth_of_le h

theorem toNat_low_byte {n : Nat} (x : BitVec n) : (x.setWidth 8).toNat = x.toNat % 256 := BitVec.toNat_setWidth 8 x

theorem toNat_fsr_high (x : FsrAddr) : (x.extractLsb' 8 8).toNat = x.toNat / 256 := by
  rw [toNat_field]
  have := x.isLt
  omega

theorem toNat_entry_high (x : PC) : ((x.extractLsb' 8 7).setWidth 8).toNat = x.toNat / 256 := by
  rw [toNat_widened _ (by decide), toNat_field]
  have := x.isLt
  omega

/-- PCL reads as the low byte of the address of the next instruction (R28); the PC's wrap does not reach that byte. -/
theorem toNat_pcl (pc : PC) : ((pc + 1).setWidth 8).toNat = (pc.toNat + 1) % 256 := by
  rw [toNat_low_byte, BitVec.toNat_add]
  show (pc.toNat + 1) % 2 ^ 15 % 256 = _
  omega

/-- STATUS as a number (R23). -/
theorem toNat_statusByte (s : State) : s.statusByte.toNat
    = s.nTO.toNat * 16 + s.nPD.toNat * 8 + s.z.toNat * 4 + s.dc.toNat * 2 + s.c.toNat := by
  simp only [State.statusByte, toNat_append_fields, toNat_carryBit, BitVec.toNat_ofNat]
  omega

/-- PCON as a number, bit 5 as 0 (R34). -/
theorem toNat_pconByte (p : Pcon) : p.toByte.toNat = p.stkovf.toNat * 128 + p.stkunf.toNat * 64 + p.nRWDT.toNat * 16
    + p.nRMCLR.toNat * 8 + p.nRI.toNat * 4 + p.nPOR.toNat * 2 + p.nBOR.toNat := by
  simp only [Pcon.toByte, toNat_append_fields, toNat_carryBit, BitVec.toNat_ofNat]
  omega

/-- A part `p` of what TOSH:TOSL read as: of 0 when the stack is empty with STVREN = 1, else of the selected entry (R32). -/
theorem tosRead_part (s : State) (p : PC → Nat) (h0 : p 0#15 = 0) : p s.tosRead
    = if s.config.stvren = true ∧ s.stkptr = 0x1F#5 then 0 else p (entryAt s s.stkptr.toNat) := by
  rw [State.tosRead, stackEntry_eq, apply_ite p, h0]
  rfl

/-- Settles O41: MOVF loads what `readLoc` answers; register by register, that byte as a number. -/
theorem readsLoadTheRegister : Obligations.ReadsLoadTheRegister := by
  intro s f loc hloc
  obtain ⟨t, ht, hw, -⟩ := exec_movf_w hloc
  refine ⟨t, ht, ?_⟩
  rw [hw]
  cases loc with
  | pcl => exact toNat_pcl s.pc
  | status => exact toNat_statusByte s
  | fsr0l => exact toNat_low_byte s.fsr0
  | fsr0h => exact toNat_fsr_high s.fsr0
  | fsr1l => exact toNat_low_byte s.fsr1
  | fsr1h => exact toNat_fsr_high s.fsr1
  | bsr => exact toNat_widened s.bsr (by decide)
  | pclath => exact toNat_widened s.pclath (by decide)
  | statusShad => exact toNat_widened s.shadow.status (by decide)
  | bsrShad => exact toNat_widened s.shadow.bsr (by decide)
  | pclathShad => exact toNat_widened s.shadow.pclath (by decide)
  | stkptr => exact toNat_widened s.stkptr (by decide)
  | pcon => exact toNat_pconByte s.pcon
  | tosl => exact (toNat_low_byte s.tosRead).trans (tosRead_part s (·.toNat % 256) rfl)
  | tosh => exact (toNat_entry_high s.tosRead).trans (tosRead_part s (·.toNat / 256) rfl)
  | prog a => exact toNat_low_byte (s.progRead a)
  | wreg | intcon | trisa | trisb | trisc | optionReg | wdtcon | wregShad | fsr0lShad | fsr0hShad | fsr1lShad
  | fsr1hShad | ram _ | platform _ | void => rfl

/-! ### A byte of RAM, stored and loaded -/

/-- `t` locates every operand as `s` does. -/
def SameOperands (s t : State) : Prop := ∀ f, locateFile t f = locateFile s f

/-- MOVWF to a byte of RAM puts W there and changes no other byte, no operand's place and not W. -/
theorem exec_movwf_ram {s : State} {f : FileAddr} {a : Nat} (h : locateFile s f = .ok (.ram a)) :
    ∃ t, exec (.movwf f) s = .next t ∧ t.ramByte a = s.w ∧ (∀ b, b ≠ a → t.ramByte b = s.ramByte b)
      ∧ SameOperands s t ∧ t.w = s.w := by
  obtain ⟨t, ht, u, ⟨hframe, hsame, hother⟩, rfl⟩ := fileStore_ok (aluPlain s.w) h
  refine ⟨_, ht, hsame, hother, ?_, (congrArg State.w hframe :)⟩
  exact locateFile_congr (congrArg State.fsr0 hframe :) (congrArg State.fsr1 hframe :) (congrArg State.bsr hframe :)
    (congrArg State.config hframe :)

/-- MOVLW changes W, the PC and the cycles alone. -/
theorem exec_movlw (s : State) (k : Byte) :
    ∃ t, exec (.movlw k) s = .next t ∧ t.w = k ∧ (∀ a, t.ramByte a = s.ramByte a) ∧ SameOperands s t :=
  ⟨_, rfl, rfl, fun _ => rfl, fun _ => rfl⟩

/-- Settles O42: each of the four instructions leaves the operands where they are; the second store is at another byte. -/
theorem storeThenLoad : Obligations.StoreThenLoad := by
  intro s f g k a b hf hg hab
  obtain ⟨t, ht, hta, -, hst, -⟩ := exec_movwf_ram hf
  obtain ⟨u, hu, huw, hur, htu⟩ := exec_movlw t k
  have hug : locateFile u g = .ok (.ram b) := by rw [htu, hst, hg]
  obtain ⟨v, hv, hvb, hvo, huv, -⟩ := exec_movwf_ram hug
  have hvf : locateFile v f = .ok (.ram a) := by rw [huv, htu, hst, hf]
  obtain ⟨x, hx, hxw, hxr⟩ := exec_movf_w hvf
  refine ⟨t, u, v, x, ht, hu, hv, hx, ?_, ?_⟩
  · calc x.w
      _ = v.ramByte a := hxw
      _ = u.ramByte a := hvo a hab
      _ = t.ramByte a := hur a
      _ = s.w := hta
  · rw [hxr, hvb, huw]

/-! ### Forms that store to no file register -/

/-- RAM as it was: the same written bytes, and the same unknown contents elsewhere (log 3). -/
def SameRam (s t : State) : Prop := t.ram = s.ram ∧ t.powerOns = s.powerOns

theorem SameRam.ramByte {s t : State} (h : SameRam s t) (a : Nat) : t.ramByte a = s.ramByte a := by
  rw [State.ramByte, State.ramByte, h.1, h.2]

theorem SameRam.trans {s t u : State} (h : SameRam s t) (h' : SameRam t u) : SameRam s u :=
  ⟨h'.1.trans h.1, h'.2.trans h.2⟩

/-- The next state is the one the meaning names. -/
theorem SameRam.of_next {s t u : State} (h : (.next u : Result) = .next t) (hu : SameRam s u) : SameRam s t :=
  KeptByUpdates.next_of h hu

theorem sameRam_of_byteOp_w {s t : State} {f : FileAddr} {op : Byte → AluResult} (h : byteOp s f .w op = .next t) :
    SameRam s t := by
  cases hl : locateFile s f with
  | error r =>
    obtain ⟨hop, -, -, -⟩ := templates_refuse hl
    rw [hop] at h
    cases h
  | ok loc =>
    obtain ⟨u, hu, hres⟩ := byteOp_ok .w op hl
    subst hres
    exact .of_next (hu.symm.trans h) ⟨rfl, rfl⟩

theorem sameRam_of_byteSkip_w {s t : State} {f : FileAddr} {op : Byte → Byte} (h : byteSkip s f .w op = .next t) :
    SameRam s t := by
  cases hl : locateFile s f with
  | error r =>
    obtain ⟨-, -, hskip, -⟩ := templates_refuse hl
    rw [hskip] at h
    cases h
  | ok loc => exact .of_next ((byteSkip_ok op hl).1.symm.trans h) ⟨rfl, rfl⟩

theorem sameRam_of_bitSkip {s t : State} {f : FileAddr} {b : BitVec 3} {v : Bool} (h : bitSkip s f b v = .next t) :
    SameRam s t := by
  cases hl : locateFile s f with
  | error r =>
    obtain ⟨-, -, -, hbit⟩ := templates_refuse hl
    rw [hbit] at h
    cases h
  | ok loc => exact .of_next ((bitSkip_ok b v hl).symm.trans h) ⟨rfl, rfl⟩

/-- The resets of a full and of an empty stack keep RAM (R351). -/
theorem sameRam_of_callTo {s t : State} {p : PC} (h : callTo s p = .next t) : SameRam s t := by
  by_cases hf : s.stkptr = 0x0F#5
  · rw [(callTo_cases s p).2 hf, overflowOutcome] at h
    split at h
    · exact .of_next h ⟨rfl, rfl⟩
    · cases h
  · obtain ⟨u, hu, -, he⟩ := (callTo_cases s p).1 hf
    exact .of_next (hu.symm.trans h) ⟨by rw [he], by rw [he]⟩

theorem sameRam_of_returnWith {s t : State} {effect : State → State} (h : returnWith s effect = .next t)
    (he : ∀ u, SameRam u (effect u)) : SameRam s t := by
  by_cases hf : s.stkptr = 0x1F#5
  · rw [(returnWith_cases s effect).2 hf, underflowOutcome] at h
    split at h
    · exact .of_next h ⟨rfl, rfl⟩
    · cases h
  · exact .of_next (((returnWith_cases s effect).1 hf).symm.trans h) (he { s with stkptr := s.stkptr - 1 })

theorem sameRam_of_tris {s t : State} {f : BitVec 3} (h : execTris f s = .next t) : SameRam s t := by
  unfold execTris at h
  repeat' split at h
  all_goals exact .of_next h ⟨rfl, rfl⟩

theorem sameRam_loadW (s : State) (loc : Loc) : SameRam s (s.loadW loc) :=
  ⟨State.afterRead_ram s loc, State.afterRead_powerOns s loc⟩

theorem sameRam_setFsr (s : State) (n : FsrSel) (v : FsrAddr) : SameRam s (s.setFsr n v) :=
  ⟨State.setFsr_ram s n v, State.setFsr_powerOns s n v⟩

theorem sameRam_of_moviwMod {s t : State} {n : FsrSel} {mm : PtrMode} (h : execMoviwMod n mm s = .next t) :
    SameRam s t := by
  unfold execMoviwMod at h
  split at h
  · cases h
  · refine .of_next h ?_
    cases mm with
    | preInc | preDec => exact (sameRam_setFsr s n _).trans (sameRam_loadW _ _)
    | postInc | postDec => exact (sameRam_loadW s _).trans (sameRam_setFsr _ n _)

theorem sameRam_of_moviwIdx {s t : State} {n : FsrSel} {k : BitVec 6} (h : execMoviwIdx n k s = .next t) :
    SameRam s t := by
  unfold execMoviwIdx at h
  split at h
  · cases h
  · exact .of_next h (sameRam_loadW s _)

theorem sameRam_of_withoutFileOperand {s t : State} {i : Instr} (hi : withoutFileOperand i = true)
    (h : exec i s = .next t) : SameRam s t := by
  cases i with
  | call k => exact sameRam_of_callTo h
  | callw => exact sameRam_of_callTo h
  | ret => exact sameRam_of_returnWith h fun _ => ⟨rfl, rfl⟩
  | retlw k => exact sameRam_of_returnWith h fun _ => ⟨rfl, rfl⟩
  | retfie => exact sameRam_of_returnWith h fun _ => ⟨rfl, rfl⟩
  | sleep =>
    refine .of_next h ?_
    split <;> exact ⟨rfl, rfl⟩
  | tris f => exact sameRam_of_tris h
  | addfsr n k => exact .of_next h (sameRam_setFsr s n _)
  | moviwMod n mm => exact sameRam_of_moviwMod h
  | moviwIdx n k => exact sameRam_of_moviwIdx h
  | clrw | addlw _ | andlw _ | iorlw _ | movlb _ | movlp _ | movlw _ | sublw _ | xorlw _ | bra _ | brw | goto _ | clrwdt
  | nop | optionW | reset => exact .of_next h ⟨rfl, rfl⟩
  | _ => cases hi

/-- The forms with d = 0 are `byteOp` and `byteSkip` with their result to W. -/
theorem sameRam_of_resultToW {s t : State} {i : Instr} {f : FileAddr} (hi : i ∈ resultToW f) (h : exec i s = .next t) :
    SameRam s t := by
  revert i
  simp only [resultToW, List.forall_mem_cons, List.not_mem_nil, false_imp_iff, implies_true, and_true, exec]
  have hop {op : Byte → AluResult} : byteOp s f .w op = .next t → SameRam s t := sameRam_of_byteOp_w
  have hskip {op : Byte → Byte} : byteSkip s f .w op = .next t → SameRam s t := sameRam_of_byteSkip_w
  exact ⟨hop, hop, hop, hop, hop, hop, hop, hop, hop, hop, hop, hop, hop, hop, hop, hop, hop, hskip, hskip⟩

/-- Settles O43: group by group, no form lists a byte of RAM anew or begins a new power-on. -/
theorem nonStoringFormsKeepRam : Obligations.NonStoringFormsKeepRam := by
  intro s t i f b hi h
  have hsame : SameRam s t := by
    obtain hno | hw | rfl | rfl := hi
    · exact sameRam_of_withoutFileOperand hno h
    · exact sameRam_of_resultToW hw h
    · exact sameRam_of_bitSkip h
    · exact sameRam_of_bitSkip h
  exact hsame.ramByte

end Sys2Proof.Machine
end

section
/-! PROOFS. The statements of `30_encoding.md`: the rows of the opcode table and what the decoder finds with them (R112,
R113, R117), the round trip of encoder and decoder (R115, R116), and the words without an instruction (R114). -/

namespace Sys2Proof

open Laws Machine

/-! ### No word has two rows -/

theorem OpRow.accepts_iff {r : OpRow} {w : ProgWord} :
    r.accepts w = true ↔ w &&& r.mask = r.code ∧ r.guard w = true := by
  simp [OpRow.accepts]

/-- The codes of two rows differ under both masks, or the first row has a single word, which the second does not accept:
so TRIS, by its side condition, leaves OPTION, SLEEP and CLRWDT their words (R116). -/
def OpRow.apart (a b : OpRow) : Bool :=
  a.code &&& b.mask != b.code &&& a.mask || (a.mask == BitVec.allOnes 14 && !b.accepts a.code)

theorem OpRow.not_both_of_apart {a b : OpRow} (h : a.apart b = true) (w : ProgWord) :
    ¬ (a.accepts w = true ∧ b.accepts w = true) := by
  rintro ⟨ha, hb⟩
  obtain ⟨hca, -⟩ := OpRow.accepts_iff.1 ha
  obtain ⟨hcb, -⟩ := OpRow.accepts_iff.1 hb
  have hsame : a.code &&& b.mask = b.code &&& a.mask := by
    rw [← hca, ← hcb, BitVec.and_assoc, BitVec.and_assoc, BitVec.and_comm a.mask]
  have hword : a.mask = BitVec.allOnes 14 → a.code = w := by
    intro hm
    rw [← hca, hm, BitVec.and_allOnes]
  simp only [OpRow.apart, hsame, bne_self_eq_false, Bool.false_or, Bool.and_eq_true, beq_iff_eq, Bool.not_eq_true'] at h
  obtain ⟨hm, hrej⟩ := h
  rw [hword hm, hb] at hrej
  cases hrej

theorem opTable_pairwise_apart : opTable.Pairwise fun a b => a.apart b = true := by
  decide

/-- Settles O5: every two rows are apart. -/
theorem opcodeRowsAreDisjoint : Obligations.OpcodeRowsAreDisjoint :=
  ⟨rfl, opTable_pairwise_apart.imp OpRow.not_both_of_apart⟩

theorem opTable_row_unique {a b : OpRow} (ha : a ∈ opTable) (hb : b ∈ opTable) {w : ProgWord}
    (hwa : a.accepts w = true) (hwb : b.accepts w = true) : a = b := by
  by_contra hne
  obtain ⟨-, hdisj⟩ := opcodeRowsAreDisjoint
  have : Std.Symm fun a b : OpRow => ∀ w, ¬ (a.accepts w = true ∧ b.accepts w = true) :=
    ⟨fun _ _ h w hw => h w hw.symm⟩
  exact hdisj.forall ha hb hne w ⟨hwa, hwb⟩

/-! ### What the decoder answers -/

/-- The decoder answers an instruction exactly when a row reads it: no two rows accept the word, so the first
that does is the only one. -/
theorem decode_eq_ok_iff {w : ProgWord} {i : Instr} : decode w = .ok i ↔ ∃ r ∈ opTable, RowReads r w i := by
  unfold decode
  cases hf : opTable.find? (·.accepts w) with
  | none =>
    simp only [reduceCtorEq, false_iff]
    rintro ⟨r, hr, hacc, -⟩
    exact List.find?_eq_none.1 hf r hr hacc
  | some r =>
    have hr : r ∈ opTable := List.mem_of_find?_eq_some hf
    have hacc : r.accepts w = true := List.find?_some (p := fun r : OpRow => r.accepts w) hf
    simp only [Except.ok.injEq]
    constructor
    · intro hi
      exact ⟨r, hr, hacc, hi⟩
    · rintro ⟨r', hr', hacc', hi⟩
      rw [opTable_row_unique hr hr' hacc hacc', hi]

theorem decode_eq_error_iff {w : ProgWord} :
    decode w = .error (.unassignedOpcode w) ↔ ∀ r ∈ opTable, ¬ r.accepts w = true := by
  rw [← List.find?_eq_none]
  unfold decode
  cases opTable.find? (·.accepts w) <;> simp

/-! ### Words of instructions -/

/-- The lemmas of the single instructions, as one. -/
theorem encodesInRow (i : Instr) : EncodesInRow.Statement i := by
  cases i with
  | addwf f d => exact EncodesInRow.addwf f d
  | addwfc f d => exact EncodesInRow.addwfc f d
  | andwf f d => exact EncodesInRow.andwf f d
  | asrf f d => exact EncodesInRow.asrf f d
  | lslf f d => exact EncodesInRow.lslf f d
  | lsrf f d => exact EncodesInRow.lsrf f d
  | clrf f => exact EncodesInRow.clrf f
  | clrw => exact EncodesInRow.clrw
  | comf f d => exact EncodesInRow.comf f d
  | decf f d => exact EncodesInRow.decf f d
  | incf f d => exact EncodesInRow.incf f d
  | iorwf f d => exact EncodesInRow.iorwf f d
  | movf f d => exact EncodesInRow.movf f d
  | movwf f => exact EncodesInRow.movwf f
  | rlf f d => exact EncodesInRow.rlf f d
  | rrf f d => exact EncodesInRow.rrf f d
  | subwf f d => exact EncodesInRow.subwf f d
  | subwfb f d => exact EncodesInRow.subwfb f d
  | swapf f d => exact EncodesInRow.swapf f d
  | xorwf f d => exact EncodesInRow.xorwf f d
  | decfsz f d => exact EncodesInRow.decfsz f d
  | incfsz f d => exact EncodesInRow.incfsz f d
  | bcf f b => exact EncodesInRow.bcf f b
  | bsf f b => exact EncodesInRow.bsf f b
  | btfsc f b => exact EncodesInRow.btfsc f b
  | btfss f b => exact EncodesInRow.btfss f b
  | addlw k => exact EncodesInRow.addlw k
  | andlw k => exact EncodesInRow.andlw k
  | iorlw k => exact EncodesInRow.iorlw k
  | movlb k => exact EncodesInRow.movlb k
  | movlp k => exact EncodesInRow.movlp k
  | movlw k => exact EncodesInRow.movlw k
  | sublw k => exact EncodesInRow.sublw k
  | xorlw k => exact EncodesInRow.xorlw k
  | bra k => exact EncodesInRow.bra k
  | brw => exact EncodesInRow.brw
  | call k => exact EncodesInRow.call k
  | callw => exact EncodesInRow.callw
  | goto k => exact EncodesInRow.goto k
  | retfie => exact EncodesInRow.retfie
  | retlw k => exact EncodesInRow.retlw k
  | ret => exact EncodesInRow.ret
  | clrwdt => exact EncodesInRow.clrwdt
  | nop => exact EncodesInRow.nop
  | optionW => exact EncodesInRow.optionW
  | reset => exact EncodesInRow.reset
  | sleep => exact EncodesInRow.sleep
  | tris f => exact EncodesInRow.tris f
  | addfsr n k => exact EncodesInRow.addfsr n k
  | moviwMod n mm => exact EncodesInRow.moviwMod n mm
  | moviwIdx n k => exact EncodesInRow.moviwIdx n k
  | movwiMod n mm => exact EncodesInRow.movwiMod n mm
  | movwiIdx n k => exact EncodesInRow.movwiIdx n k

/-- Settles O2: the row that reads an instruction's own word is the one the decoder finds. -/
theorem decodeInvertsEncode : Obligations.DecodeInvertsEncode :=
  fun i hi => decode_eq_ok_iff.2 (encodesInRow i hi)

/-! ### Code and operand of a row -/

/-- How many words show the row's code under its mask. -/
def OpRow.blockSize (r : OpRow) : Nat := 2 ^ 14 - r.mask.toNat

/-- How many bits the row's mask leaves free. -/
def OpRow.operandBits (r : OpRow) : Nat := r.blockSize.log2

/-- The word with the row's code that has `w`'s bits where the mask leaves them free. -/
def OpRow.wordWith (r : OpRow) (w : ProgWord) : ProgWord := r.code ||| (w.extractLsb' 0 r.operandBits).setWidth 14

/-- Every mask of the table leaves the low bits of the word free, and no code has a bit there. -/
theorem opTable_mask_code : ∀ r ∈ opTable, r.mask = BitVec.allOnes 14 <<< r.operandBits
    ∧ r.blockSize = 2 ^ r.operandBits ∧ r.code.toNat % r.blockSize = 0 := by
  decide

theorem masked_or_low_field {k m : Nat} {w code : BitVec k} (h : w &&& BitVec.allOnes k <<< m = code) :
    code ||| (w.extractLsb' 0 m).setWidth k = w := by
  subst h
  ext i hi
  by_cases him : i < m <;> simp [him, hi]

theorem and_allOnes_shiftLeft {k : Nat} (w : BitVec k) (m : Nat) :
    w &&& BitVec.allOnes k <<< m = (w >>> m) <<< m := by
  ext i hi
  by_cases him : i < m
  · simp [him]
  · have hbit : m + (i - m) = i := by omega
    simp [him, hbit, hi]

theorem toNat_and_allOnes_shiftLeft {k : Nat} (w : BitVec k) (m : Nat) :
    (w &&& BitVec.allOnes k <<< m).toNat = w.toNat / 2 ^ m * 2 ^ m := by
  have hle : w.toNat / 2 ^ m * 2 ^ m < 2 ^ k := (Nat.div_mul_le_self _ _).trans_lt w.isLt
  rw [and_allOnes_shiftLeft, BitVec.toNat_shiftLeft, BitVec.toNat_ushiftRight, Nat.shiftRight_eq_div_pow,
    Nat.shiftLeft_eq, Nat.mod_eq_of_lt hle]

theorem OpRow.wordWith_of_accepts {r : OpRow} (hr : r ∈ opTable) {w : ProgWord} (hw : r.accepts w = true) :
    r.wordWith w = w := by
  obtain ⟨hmask, -, -⟩ := opTable_mask_code r hr
  obtain ⟨hcode, -⟩ := OpRow.accepts_iff.1 hw
  exact masked_or_low_field (hmask ▸ hcode)

/-- The words that a row accepts are a block that begins at its code, less what the side condition of TRIS shuts out. -/
theorem OpRow.accepts_iff_block {r : OpRow} (hr : r ∈ opTable) {w : ProgWord} : r.accepts w = true ↔
    r.code.toNat ≤ w.toNat ∧ w.toNat < r.code.toNat + r.blockSize ∧ r.guard w = true := by
  obtain ⟨hmask, hsize, haligned⟩ := opTable_mask_code r hr
  obtain ⟨q, hq⟩ := Nat.dvd_of_mod_eq_zero haligned
  have hpos : 0 < r.blockSize := hsize ▸ Nat.two_pow_pos _
  have hblock : w &&& r.mask = r.code ↔ w.toNat / r.blockSize = q := by
    rw [hmask, ← BitVec.toNat_inj, toNat_and_allOnes_shiftLeft, ← hsize, hq, mul_comm, Nat.mul_right_inj hpos.ne']
  rw [OpRow.accepts_iff, hblock, Nat.div_eq_iff hpos, hq, ← and_assoc]
  apply and_congr_left'
  rw [mul_comm]
  omega

/-! ### Fields of a word (R112) -/

theorem extract_bit (w : ProgWord) (i : Nat) : w.extractLsb' i 1 = BitVec.ofBool (w.getLsbD i) := by
  ext j hj
  obtain rfl : j = 0 := by omega
  simp

theorem destBit_fieldD (w : ProgWord) : destBit (fieldD w) = w.extractLsb' 7 1 := by
  rw [extract_bit, fieldD]
  cases w.getLsbD 7 <;> rfl

theorem fsrBit_fieldN (w : ProgWord) (i : Nat) : fsrBit (fieldN w i) = w.extractLsb' i 1 := by
  rw [extract_bit, fieldN]
  cases w.getLsbD i <;> rfl

theorem modeBits_fieldMM (w : ProgWord) : modeBits (fieldMM w) = w.extractLsb' 0 2 := by
  have hsplit : w.extractLsb' 1 1 ++ w.extractLsb' 0 1 = w.extractLsb' 0 2 :=
    BitVec.extractLsb'_append_extractLsb'_eq_extractLsb' rfl
  rw [← hsplit, extract_bit, extract_bit, fieldMM]
  cases w.getLsbD 1 <;> cases w.getLsbD 0 <;> rfl

/-- Two neighbouring operand fields below a code are one. -/
theorem append_two_fields {n p q : Nat} (code : BitVec n) (w : BitVec (n + p + q)) :
    code ++ w.extractLsb' q p ++ w.extractLsb' 0 q
      = (code ++ 0#p ++ 0#q) ||| (w.extractLsb' 0 (p + q)).setWidth (n + p + q) := by
  ext i hi
  simp only [BitVec.getElem_append, BitVec.getElem_or, BitVec.getElem_setWidth, BitVec.getLsbD_extractLsb',
    BitVec.getElem_extractLsb']
  by_cases hq : i < q
  · have : i < p + q := by omega
    simp [hq, this]
  · by_cases hp : i - q < p
    · have hpq : i < p + q := by omega
      have : q + (i - q) = i := by omega
      simp [hq, hp, hpq, this]
    · have hpq : ¬ i < p + q := by omega
      simp [hq, hp, hpq]

/-- Format BYTE: the fields `d` and `f`. -/
theorem byte_fields_eq (code : BitVec 6) (w : ProgWord) : code ++ destBit (fieldD w) ++ fieldF w
    = (code ++ 0#1 ++ 0#7) ||| (w.extractLsb' 0 8).setWidth 14 := by
  rw [destBit_fieldD, fieldF]
  exact append_two_fields (p := 1) (q := 7) code w

/-- Format BIT: the fields `b` and `f`. -/
theorem bit_fields_eq (code : BitVec 4) (w : ProgWord) : code ++ fieldB w ++ fieldF w
    = (code ++ 0#3 ++ 0#7) ||| (w.extractLsb' 0 10).setWidth 14 := by
  rw [fieldB, fieldF]
  exact append_two_fields (p := 3) (q := 7) code w

/-- Format FSRK: the fields `n` and `k`. -/
theorem fsrk_fields_eq (code : BitVec 7) (w : ProgWord) : code ++ fsrBit (fieldN w 6) ++ w.extractLsb' 0 6
    = (code ++ 0#1 ++ 0#6) ||| (w.extractLsb' 0 7).setWidth 14 := by
  rw [fsrBit_fieldN]
  exact append_two_fields (p := 1) (q := 6) code w

/-- Format FSRM: the fields `n` and `mm`. -/
theorem fsrm_fields_eq (code : BitVec 11) (w : ProgWord) : code ++ fsrBit (fieldN w 2) ++ modeBits (fieldMM w)
    = (code ++ 0#1 ++ 0#2) ||| (w.extractLsb' 0 3).setWidth 14 := by
  rw [fsrBit_fieldN, modeBits_fieldMM]
  exact append_two_fields (p := 1) (q := 2) code w

/-- A format without a field: the code is the word. -/
theorem no_fields_eq (code w : ProgWord) : code = code ||| (w.extractLsb' 0 0).setWidth 14 := by
  simp

/-! ### Encoding what a row builds

Of a row with one operand field this holds by definition: to put a field below a code is the OR of the two. -/

/-- The one row with don't-care bits (R115). -/
def clrwRow : OpRow := { code := 0x0100#14, mask := 0x3FFC#14, build := fun _ => .clrw }

/-- The encoder puts code and operands of what the row builds back in their places. -/
def RowEncodes (r : OpRow) : Prop := ∀ w, encode (r.build w) = r.wordWith w

theorem opRowsByte_encode : ∀ r ∈ opRowsByte, r = clrwRow ∨ RowEncodes r := by
  simp only [opRowsByte, List.forall_mem_cons]
  exact ⟨.inr (byte_fields_eq _), .inr (byte_fields_eq _), .inr (byte_fields_eq _), .inr (byte_fields_eq _),
    .inr (byte_fields_eq _), .inr (byte_fields_eq _), .inr fun _ => rfl, .inl rfl, .inr (byte_fields_eq _),
    .inr (byte_fields_eq _), .inr (byte_fields_eq _), .inr (byte_fields_eq _), .inr (byte_fields_eq _),
    .inr fun _ => rfl, .inr (byte_fields_eq _), .inr (byte_fields_eq _), .inr (byte_fields_eq _),
    .inr (byte_fields_eq _), .inr (byte_fields_eq _), .inr (byte_fields_eq _), .inr (byte_fields_eq _),
    .inr (byte_fields_eq _), List.forall_mem_nil _⟩

theorem opRowsBitLiteral_encode : ∀ r ∈ opRowsBitLiteral, RowEncodes r := by
  simp only [opRowsBitLiteral, List.forall_mem_cons]
  exact ⟨bit_fields_eq _, bit_fields_eq _, bit_fields_eq _, bit_fields_eq _, fun _ => rfl, fun _ => rfl, fun _ => rfl,
    fun _ => rfl, fun _ => rfl, fun _ => rfl, fun _ => rfl, fun _ => rfl, List.forall_mem_nil _⟩

theorem opRowsRest_encode : ∀ r ∈ opRowsRest, RowEncodes r := by
  simp only [opRowsRest, List.forall_mem_cons]
  exact ⟨fun _ => rfl, no_fields_eq _, fun _ => rfl, no_fields_eq _, fun _ => rfl, no_fields_eq _, fun _ => rfl,
    no_fields_eq _, no_fields_eq _, no_fields_eq _, no_fields_eq _, no_fields_eq _, no_fields_eq _, fun _ => rfl,
    fsrk_fields_eq _, fsrm_fields_eq _, fsrk_fields_eq _, fsrm_fields_eq _, fsrk_fields_eq _,
    List.forall_mem_nil _⟩

theorem opTable_encode : ∀ r ∈ opTable, r = clrwRow ∨ RowEncodes r := by
  simp only [opTable, List.forall_mem_append]
  exact ⟨⟨opRowsByte_encode, fun r hr => .inr (opRowsBitLiteral_encode r hr)⟩,
    fun r hr => .inr (opRowsRest_encode r hr)⟩

/-- The side condition of TRIS is its well-formedness (R116); what the other rows build is well formed. -/
theorem opTable_build_wellFormed : ∀ r ∈ opTable, ∀ w, r.guard w = true → (r.build w).wellFormed = true := by
  simp [opTable, opRowsByte, opRowsBitLiteral, opRowsRest, Instr.wellFormed]

/-- Settles O3: the row that reads the word keeps its bits in code and operands, or is CLRW's, with four
words. -/
theorem decodedWordsEncodeBack : Obligations.DecodedWordsEncodeBack := by
  intro w i hd
  obtain ⟨r, hr, hacc, rfl⟩ := decode_eq_ok_iff.1 hd
  refine ⟨opTable_build_wellFormed r hr w (OpRow.accepts_iff.1 hacc).2, ?_⟩
  rcases opTable_encode r hr with rfl | henc
  · obtain ⟨hlo, hhi, -⟩ := (OpRow.accepts_iff_block hr).1 hacc
    exact .inr ⟨rfl, hlo, Nat.le_of_lt_succ hhi⟩
  · exact .inl ((henc w).trans (OpRow.wordWith_of_accepts hr hacc))

/-! ### Words without an instruction (R114) -/

/-- The blocks of the 53 rows leave out the five ranges of R114, and nothing else. -/
theorem no_row_accepts_iff (w : ProgWord) :
    (∀ r ∈ opTable, ¬ r.accepts w = true) ↔ unassignedWord w.toNat = true := by
  have hlt : w.toNat < 2 ^ 14 := w.isLt
  have hfield : (w.extractLsb' 0 3).toNat = w.toNat % 8 := by rw [toNat_field, pow_zero, Nat.div_one]; rfl
  have hblocks : (∀ r ∈ opTable, ¬ r.accepts w = true) ↔ ∀ r ∈ opTable,
      ¬ (r.code.toNat ≤ w.toNat ∧ w.toNat < r.code.toNat + r.blockSize ∧ r.guard w = true) :=
    forall₂_congr fun r hr => not_congr (OpRow.accepts_iff_block hr)
  rw [hblocks]
  simp only [opTable, opRowsByte, opRowsBitLiteral, opRowsRest, OpRow.blockSize, List.cons_append, List.nil_append,
    List.forall_mem_cons, List.not_mem_nil, false_imp_iff, implies_true, and_true, BitVec.reduceToNat, hfield,
    unassignedWord, decide_eq_true_eq]
  constructor
  · -- outside the five ranges some block holds the word; two cuts keep the search among the 53 blocks small
    intro h
    by_cases hlow : w.toNat < 0x0200
    · omega
    · by_cases hmid : w.toNat < 0x1000
      · omega
      · omega
  · intro h
    omega

theorem decode_unassigned_iff (w : ProgWord) :
    decode w = .error (.unassignedOpcode w) ↔ unassignedWord w.toNat = true :=
  decode_eq_error_iff.trans (no_row_accepts_iff w)

theorem not_unassignedWord_of_le {w : Nat} (h : 0x0180 ≤ w) : unassignedWord w = false := by
  simp only [unassignedWord, decide_eq_false_iff_not]
  omega

theorem length_filter_unassignedWord : ((List.range 16384).filter unassignedWord).length = 192 := by
  have hrest : ((List.range 16000).map (0x0180 + ·)).filter unassignedWord = [] := by
    simp [not_unassignedWord_of_le]
  rw [show 16384 = 0x0180 + 16000 from rfl, List.range_add, List.filter_append, hrest, List.append_nil]
  rfl

/-- A CPU that fetches a word without an instruction is refused by name, with the word. -/
theorem step_of_unassignedWord {s s' : State} (hf : Fetches s s')
    (hu : unassignedWord (s'.progRead s'.pc).toNat = true) :
    step s = .refused (.unassignedOpcode (s'.progRead s'.pc)) := by
  have hfetched : s'.fetching.progRead s'.fetching.pc = s'.progRead s'.pc := by
    rw [State.fetching_eq]
    rfl
  rw [step_of_fetches hf]
  simp only [runInstruction, hfetched, (decode_unassigned_iff _).2 hu]

/-- Settles O4: the words outside every row's block, their number, and the step that fetches one. -/
theorem unassignedWordsAreRefused : Obligations.UnassignedWordsAreRefused :=
  ⟨decode_unassigned_iff, length_filter_unassignedWord,
    fun _ _ ht ha hw hp hu => step_of_unassignedWord ⟨ht, ha, .inr ⟨hw, hp⟩⟩ hu⟩

/-! ### Words as examples (R115, R116) -/

theorem clrwRow_mem_opTable : clrwRow ∈ opTable := List.getElem_mem (l := opTable) (n := 7) (by decide)

theorem decode_of_clrwRow {w : ProgWord} (h : clrwRow.accepts w = true) : decode w = .ok .clrw :=
  decode_eq_ok_iff.2 ⟨clrwRow, clrwRow_mem_opTable, h, rfl⟩

theorem decode_of_encode {w : ProgWord} {i : Instr} (hi : i.wellFormed = true) (hw : encode i = w) : decode w = .ok i :=
  hw ▸ decodeInvertsEncode i hi

/-- Settles O1: the words are CLRW's own, the encoder's, or unassigned. -/
theorem sampleWordsDecode : Obligations.SampleWordsDecode := by
  have enc {w : ProgWord} {i : Instr} : i.wellFormed = true → encode i = w → decode w = .ok i := decode_of_encode
  have noRow {w : ProgWord} : unassignedWord w.toNat = true → decode w = .error (.unassignedOpcode w) :=
    (decode_unassigned_iff w).2
  have clrw {w : ProgWord} : clrwRow.accepts w = true → decode w = .ok .clrw := decode_of_clrwRow
  exact ⟨⟨clrw rfl, clrw rfl, clrw rfl, clrw rfl, rfl⟩,
    ⟨enc rfl rfl, enc rfl rfl, enc rfl rfl, enc rfl rfl, enc rfl rfl, enc rfl rfl, noRow rfl, noRow rfl⟩,
    enc rfl rfl, enc rfl rfl, enc rfl rfl, enc rfl rfl, enc rfl rfl, enc rfl rfl, enc rfl rfl, enc rfl rfl,
    enc rfl rfl, enc rfl rfl⟩

end Sys2Proof
end

section
/-! PROOFS. The statements of `40_byte_oriented.md`: what the arithmetic unit computes for a byte of file register f, in
numbers (R140 to R160, R280, R282), and the instructions that deliver it. -/

namespace Sys2Proof.Machine

/-! ### The arithmetic unit, in numbers -/

theorem isZero_eq (v : Byte) : isZero v = decide (v.toNat = 0) := by
  rw [isZero, beq_eq_decide, decide_eq_decide]
  exact BitVec.toNat_inj.symm

theorem aluZ_eq (v : Byte) : aluZ v = { value := v, z := some (decide (v.toNat = 0)) } := by
  rw [aluZ, isZero_eq]

/-- Subtraction without a borrow to begin with; it is zero only for equal bytes. -/
theorem sub8_eq (x y : Byte) :
    sub8 x y = { value := BitVec.ofInt 8 ((x.toNat : Int) - y.toNat), c := some (decide (y.toNat ≤ x.toNat))
                 dc := some (decide (y.toNat % 16 ≤ x.toNat % 16)), z := some (decide (x.toNat = y.toNat)) } := by
  have hx : x.toNat < 256 := x.isLt
  have hy : y.toNat < 256 := y.isLt
  have hzero : ((x.toNat : Int) - y.toNat) % 256 = 0 ↔ x.toNat = y.toNat := by omega
  have hsub : sub8 x y = subb8 x y true := rfl
  rw [hsub, subb8_eq]
  simp [hzero]

theorem bitOf_zero_eq (a : Byte) : bitOf a 0 = decide (a.toNat % 2 = 1) := by
  rw [bitOf, pow_zero, Nat.div_one]

theorem bitOf_seven_eq (a : Byte) : bitOf a 7 = decide (128 ≤ a.toNat) := by
  have ha : a.toNat < 256 := a.isLt
  rw [bitOf, decide_eq_decide]
  omega

/-- The top bit, as a number. -/
theorem toNat_bitOf_seven (a : Byte) : (bitOf a 7).toNat = a.toNat / 128 := by
  have ha : a.toNat < 256 := a.isLt
  rw [bitOf_seven_eq]
  by_cases h : 128 ≤ a.toNat
  · simp only [h, decide_true, Bool.toNat_true]
    omega
  · simp only [h, decide_false, Bool.toNat_false]
    omega

/-- A bit that enters on the left: the byte moves one place to the right. -/
theorem toNat_enter_left (b : Bool) (a : Byte) :
    (carryBit b ++ a.extractLsb' 1 7).toNat = a.toNat / 2 + b.toNat * 128 := by
  have ha : a.toNat < 256 := a.isLt
  rw [toNat_append_fields, toNat_field, toNat_carryBit]
  omega

/-- A bit that enters on the right: the byte moves one place to the left and loses bit 7. -/
theorem toNat_enter_right (a : Byte) (b : Bool) :
    (a.extractLsb' 0 7 ++ carryBit b).toNat = (a.toNat * 2 + b.toNat) % 256 := by
  have hb := bool_toNat_le b
  rw [toNat_append_fields, toNat_field, toNat_carryBit]
  omega

theorem asr8_eq (a : Byte) :
    asr8 a = { value := BitVec.ofNat 8 (a.toNat / 2 + a.toNat / 128 * 128), c := some (decide (a.toNat % 2 = 1))
               z := some (decide (a.toNat < 2)) } := by
  have ha : a.toNat < 256 := a.isLt
  have hvalue : (carryBit (a.getLsbD 7) ++ a.extractLsb' 1 7).toNat = a.toNat / 2 + a.toNat / 128 * 128 := by
    rw [toNat_enter_left, ← bitOf_eq_getLsbD, toNat_bitOf_seven]
  rw [asr8, ← bitOf_eq_getLsbD a 0, bitOf_zero_eq, isZero_eq, hvalue]
  congr 2
  · exact BitVec.eq_of_toNat_eq (by rw [hvalue, BitVec.toNat_ofNat]; omega)
  · rw [decide_eq_decide]
    omega

theorem lsl8_eq (a : Byte) :
    lsl8 a = { value := BitVec.ofNat 8 (a.toNat * 2), c := some (decide (128 ≤ a.toNat))
               z := some (decide (a.toNat % 128 = 0)) } := by
  have hvalue : (a.extractLsb' 0 7 ++ 0#1).toNat = a.toNat * 2 % 256 := toNat_enter_right a false
  rw [lsl8, ← bitOf_eq_getLsbD, bitOf_seven_eq, isZero_eq, hvalue]
  congr 2
  · exact BitVec.eq_of_toNat_eq (by rw [hvalue, BitVec.toNat_ofNat])
  · rw [decide_eq_decide]
    omega

theorem lsr8_eq (a : Byte) :
    lsr8 a = { value := BitVec.ofNat 8 (a.toNat / 2), c := some (decide (a.toNat % 2 = 1))
               z := some (decide (a.toNat < 2)) } := by
  have ha : a.toNat < 256 := a.isLt
  have hvalue : (0#1 ++ a.extractLsb' 1 7).toNat = a.toNat / 2 := toNat_enter_left false a
  rw [lsr8, ← bitOf_eq_getLsbD, bitOf_zero_eq, isZero_eq, hvalue]
  congr 2
  · exact BitVec.eq_of_toNat_eq (by rw [hvalue, BitVec.toNat_ofNat]; omega)
  · rw [decide_eq_decide]
    omega

theorem rl8_eq (a : Byte) (c : Bool) :
    rl8 a c = { value := BitVec.ofNat 8 (a.toNat * 2 + c.toNat), c := some (decide (128 ≤ a.toNat)) } := by
  rw [rl8, ← bitOf_eq_getLsbD, bitOf_seven_eq]
  congr 1
  exact BitVec.eq_of_toNat_eq (by rw [toNat_enter_right, BitVec.toNat_ofNat])

theorem rr8_eq (a : Byte) (c : Bool) :
    rr8 a c = { value := BitVec.ofNat 8 (a.toNat / 2 + c.toNat * 128), c := some (decide (a.toNat % 2 = 1)) } := by
  have hlt : (carryBit c ++ a.extractLsb' 1 7).toNat < 256 := BitVec.isLt _
  rw [toNat_enter_left] at hlt
  rw [rr8, ← bitOf_eq_getLsbD, bitOf_zero_eq]
  congr 1
  exact BitVec.eq_of_toNat_eq (by rw [toNat_enter_left, BitVec.toNat_ofNat, Nat.mod_eq_of_lt hlt])

theorem swap8_eq (a : Byte) : swap8 a = BitVec.ofNat 8 (a.toNat % 16 * 16 + a.toNat / 16) := by
  have hhigh : a.toNat / 2 ^ 4 < 2 ^ 4 := Nat.div_lt_of_lt_mul a.isLt
  have hlt : a.toNat % 2 ^ 4 * 2 ^ 4 + a.toNat / 2 ^ 4 < 2 ^ 8 := by omega
  apply BitVec.eq_of_toNat_eq
  rw [swap8, toNat_append_fields, toNat_field, toNat_field, BitVec.toNat_ofNat, pow_zero, Nat.div_one,
    Nat.mod_eq_of_lt hhigh]
  exact (Nat.mod_eq_of_lt hlt).symm

/-- Counting down is adding 255 modulo 256; 1 alone comes to zero. -/
theorem aluZ_sub_one_eq (a : Byte) :
    aluZ (a - 1) = { value := BitVec.ofNat 8 (a.toNat + 255), z := some (decide (a.toNat = 1)) } := by
  have ha : a.toNat < 256 := a.isLt
  have hvalue : a - 1 = BitVec.ofNat 8 (a.toNat + 255) := by
    apply BitVec.eq_of_toNat_eq
    rw [BitVec.toNat_sub, BitVec.toNat_ofNat, add_comm]
    rfl
  rw [aluZ_eq, hvalue]
  congr 2
  rw [BitVec.toNat_ofNat, decide_eq_decide]
  omega

/-- Counting up wraps to zero from 255 alone. -/
theorem aluZ_add_one_eq (a : Byte) :
    aluZ (a + 1) = { value := BitVec.ofNat 8 (a.toNat + 1), z := some (decide (a.toNat = 255)) } := by
  have ha : a.toNat < 256 := a.isLt
  have hvalue : a + 1 = BitVec.ofNat 8 (a.toNat + 1) := BitVec.eq_of_toNat_eq (by simp)
  rw [aluZ_eq, hvalue]
  congr 2
  rw [BitVec.toNat_ofNat, decide_eq_decide]
  omega

/-! ### Bit by bit -/

theorem bitOf_and (v u : Byte) (k : Nat) : bitOf (v &&& u) k = (bitOf v k && bitOf u k) := by
  simp only [bitOf_eq_getLsbD, BitVec.getLsbD_and]

theorem bitOf_or (v u : Byte) (k : Nat) : bitOf (v ||| u) k = (bitOf v k || bitOf u k) := by
  simp only [bitOf_eq_getLsbD, BitVec.getLsbD_or]

theorem bitOf_xor (v u : Byte) (k : Nat) : bitOf (v ^^^ u) k = (bitOf v k != bitOf u k) := by
  simp only [bitOf_eq_getLsbD, BitVec.getLsbD_xor, Bool.xor]

theorem bitOf_not (v : Byte) (k : Fin 8) : bitOf (~~~v) k = !bitOf v k := by
  simp [bitOf_eq_getLsbD]

/-! ### The instructions

Each is the template `byteOp` or `fileStore` by definition of `exec`, so the template's lemma answers for it once the byte
of the operand is put into the operation. -/

/-- `byteOp_ok` with the operation replaced by what it computes. -/
theorem byteOp_result {s : State} {f : FileAddr} {loc : Loc} {op result : Byte → AluResult} (d : Dest)
    (h : locateFile s f = .ok loc) (hop : ∀ a, op a = result a) :
    ∃ t, byteOp s f d op = .next t ∧
      FileResult s d loc (result (readLoc s loc)).value ((result (readLoc s loc)).c.getD s.c)
        ((result (readLoc s loc)).dc.getD s.dc) ((result (readLoc s loc)).z.getD s.z)
        (result (readLoc s loc)).affects t :=
  hop (readLoc s loc) ▸ byteOp_ok d op h

/-- Settles O6: both are `Add8`, with and without the old carry. -/
theorem addwfAndAddwfcAdd : Obligations.AddwfAndAddwfcAdd := by
  refine ⟨fun f d => ⟨decodeInvertsEncode (.addwf f d) rfl, decodeInvertsEncode (.addwfc f d) rfl⟩, ?_⟩
  intro s f d loc h w a cin
  exact ⟨byteOp_result d h fun v => add8_eq s.w v false, byteOp_result d h fun v => add8_eq s.w v s.c⟩

/-- Settles O7: both subtract W from the operand, SUBWFB with the old carry as "no borrow". -/
theorem subwfAndSubwfbSubtract : Obligations.SubwfAndSubwfbSubtract := by
  refine ⟨fun f d => ⟨decodeInvertsEncode (.subwf f d) rfl, decodeInvertsEncode (.subwfb f d) rfl⟩, ?_⟩
  intro s f d loc h w a bin
  exact ⟨byteOp_result d h fun v => sub8_eq v s.w, byteOp_result d h fun v => subb8_eq v s.w s.c⟩

/-- `byteOp_ok` for an operation that is given bit by bit, from W and the operand, and sets Z alone. -/
theorem byteOp_aluZ_bits {s : State} {f : FileAddr} {loc : Loc} {op : Byte → Byte} {bit : Bool → Bool → Bool} (d : Dest)
    (h : locateFile s f = .ok loc)
    (hbits : ∀ (a : Byte) (k : Fin 8), bitOf (op a) k = bit (bitOf s.w k) (bitOf a k)) :
    ∃ (t : State) (r : Byte), (∀ k : Fin 8, bitOf r k = bit (bitOf s.w k) (bitOf (readLoc s loc) k)) ∧
      byteOp s f d (fun a => aluZ (op a)) = .next t ∧ FileResult s d loc r s.c s.dc (decide (r.toNat = 0)) true t := by
  obtain ⟨t, ht, hres⟩ := byteOp_result d h fun a => aluZ_eq (op a)
  exact ⟨t, _, hbits _, ht, hres⟩

/-- Settles O8: the four operations of the arithmetic unit, bit by bit. -/
theorem logicOnFilesSetsZ : Obligations.LogicOnFilesSetsZ := by
  refine ⟨fun f d => ⟨decodeInvertsEncode (.andwf f d) rfl, decodeInvertsEncode (.iorwf f d) rfl,
    decodeInvertsEncode (.xorwf f d) rfl, decodeInvertsEncode (.comf f d) rfl⟩, ?_⟩
  intro s f d loc h a gives
  exact ⟨byteOp_aluZ_bits d h fun v k => bitOf_and s.w v k, byteOp_aluZ_bits d h fun v k => bitOf_or s.w v k,
    byteOp_aluZ_bits d h fun v k => bitOf_xor s.w v k, byteOp_aluZ_bits (bit := fun _ y => !y) d h fun v k => bitOf_not v k⟩

/-- Settles O9: DC is not among the flags that the three operations affect. -/
theorem shiftsMoveOnePlace : Obligations.ShiftsMoveOnePlace := by
  refine ⟨fun f d => ⟨decodeInvertsEncode (.asrf f d) rfl, decodeInvertsEncode (.lslf f d) rfl,
    decodeInvertsEncode (.lsrf f d) rfl⟩, ?_⟩
  intro s f d loc h a
  exact ⟨byteOp_result d h asr8_eq, byteOp_result d h lsl8_eq, byteOp_result d h lsr8_eq⟩

/-- Settles O10: the old carry enters, and C is the one flag that the two operations affect. -/
theorem rotatesGoThroughCarry : Obligations.RotatesGoThroughCarry := by
  refine ⟨fun f d => ⟨decodeInvertsEncode (.rlf f d) rfl, decodeInvertsEncode (.rrf f d) rfl⟩, ?_⟩
  intro s f d loc h a
  exact ⟨byteOp_result d h fun v => rl8_eq v s.c, byteOp_result d h fun v => rr8_eq v s.c⟩

/-- Settles O11: both set Z alone, from the count modulo 256. -/
theorem decfAndIncfCount : Obligations.DecfAndIncfCount := by
  refine ⟨fun f d => ⟨decodeInvertsEncode (.decf f d) rfl, decodeInvertsEncode (.incf f d) rfl⟩, ?_⟩
  intro s f d loc h a
  exact ⟨byteOp_result d h aluZ_sub_one_eq, byteOp_result d h aluZ_add_one_eq⟩

/-- Settles O12: SWAPF affects no flag, so its result is written to STATUS as to any register. -/
theorem movfAndSwapfMove : Obligations.MovfAndSwapfMove := by
  refine ⟨fun f d => ⟨decodeInvertsEncode (.movf f d) rfl, decodeInvertsEncode (.swapf f d) rfl⟩, ?_⟩
  intro s f d loc h a
  exact ⟨byteOp_result d h aluZ_eq, byteOp_result d h fun v => congrArg aluPlain (swap8_eq v)⟩

/-- Settles O13: the template that both share makes no read. -/
theorem clrfAndMovwfStore : Obligations.ClrfAndMovwfStore := by
  refine ⟨fun f => ⟨decodeInvertsEncode (.clrf f) rfl, decodeInvertsEncode (.movwf f) rfl⟩, ?_⟩
  intro s f loc h
  exact ⟨fileStore_ok { value := 0x00#8, z := some true } h, fileStore_ok (aluPlain s.w) h⟩

end Sys2Proof.Machine
end

section
/-! PROOFS. The statements of `41_byte_skip.md`: a file register is counted, and the next instruction is skipped if the
count comes to zero (R170, R171, R172). -/

namespace Sys2Proof.Machine

/-- `byteSkip_ok` with the operation and its zero test replaced by what the arithmetic unit makes of the operand. -/
theorem byteSkip_result {s : State} {f : FileAddr} {loc : Loc} {op result : Byte → Byte} {zero : Byte → Bool}
    (h : locateFile s f = .ok loc) (hop : ∀ a, aluZ (op a) = { value := result a, z := some (zero a) }) :
    byteSkip s f .w op = .next (skipped s { withRead s loc with w := result (readLoc s loc) } loc (zero (readLoc s loc)))
    ∧ (loc ≠ .pcl → ∃ u, Written (withRead s loc) loc (result (readLoc s loc)) false u ∧
        byteSkip s f .f op = .next (skipped s u loc (zero (readLoc s loc))))
    ∧ (loc = .pcl → byteSkip s f .f op = .refused .skipOnPCL) := by
  have hvalue : op (readLoc s loc) = result (readLoc s loc) := congrArg AluResult.value (hop _)
  have hzero : isZero (op (readLoc s loc)) = zero (readLoc s loc) := Option.some.inj (congrArg AluResult.z (hop _))
  have hskip := byteSkip_ok op h
  rwa [hzero, hvalue] at hskip

/-- Settles O14: both count as DECF and INCF do, and skip where those would set Z. -/
theorem decfszAndIncfszCountAndSkip : Obligations.DecfszAndIncfszCountAndSkip := by
  refine ⟨fun f d => ⟨decodeInvertsEncode (.decfsz f d) rfl, decodeInvertsEncode (.incfsz f d) rfl⟩, ?_⟩
  intro s f loc h a counts
  exact ⟨byteSkip_result h aluZ_sub_one_eq, byteSkip_result h aluZ_add_one_eq⟩

end Sys2Proof.Machine
end

section
/-! PROOFS. The statements of `42_bit_oriented.md`: one bit of a file register is cleared or set, and the whole byte is
written back (R180, R181, R182). -/

namespace Sys2Proof.Machine

theorem bitOf_bitMask (b : BitVec 3) (k : Fin 8) : bitOf (bitMask b) k = decide (k.val = b.toNat) := by
  rw [bitOf_eq_getLsbD, bitMask, BitVec.getLsbD_shiftLeft, BitVec.getLsbD_one, Bool.eq_iff_iff]
  simp only [Bool.and_eq_true, Bool.not_eq_true', decide_eq_true_eq, decide_eq_false_iff_not]
  omega

/-- The AND with the complement of the mask clears bit `b` and keeps every other bit. -/
theorem bitOf_and_not_bitMask (a : Byte) (b : BitVec 3) (k : Fin 8) :
    bitOf (a &&& ~~~(bitMask b)) k = if k.val = b.toNat then false else bitOf a k := by
  rw [bitOf_and, bitOf_not, bitOf_bitMask]
  by_cases hk : k.val = b.toNat <;> simp [hk]

/-- The OR with the mask sets bit `b` and keeps every other bit. -/
theorem bitOf_or_bitMask (a : Byte) (b : BitVec 3) (k : Fin 8) :
    bitOf (a ||| bitMask b) k = if k.val = b.toNat then true else bitOf a k := by
  rw [bitOf_or, bitOf_bitMask]
  by_cases hk : k.val = b.toNat <;> simp [hk]

/-- `byteOp_ok` back to the operand for an operation that forces bit `b` to `v` and affects no flag. -/
theorem byteOp_aluPlain_bit {s : State} {f : FileAddr} {loc : Loc} {op : Byte → Byte} {b : BitVec 3} {v : Bool}
    (h : locateFile s f = .ok loc)
    (hbits : ∀ (a : Byte) (k : Fin 8), bitOf (op a) k = if k.val = b.toNat then v else bitOf a k) :
    ∃ (t : State) (r : Byte), (∀ k : Fin 8, bitOf r k = if k.val = b.toNat then v else bitOf (readLoc s loc) k) ∧
      byteOp s f .f (fun a => aluPlain (op a)) = .next t ∧ FileResult s .f loc r s.c s.dc s.z false t := by
  obtain ⟨t, ht, hres⟩ := byteOp_ok .f (fun a => aluPlain (op a)) h
  exact ⟨t, op (readLoc s loc), hbits (readLoc s loc), ht, hres⟩

/-- Settles O16: BCF takes the AND with the complement of the bit's mask, BSF the OR with the mask. -/
theorem bcfAndBsfChangeOneBit : Obligations.BcfAndBsfChangeOneBit := by
  refine ⟨fun f b => ⟨decodeInvertsEncode (.bcf f b) rfl, decodeInvertsEncode (.bsf f b) rfl⟩, ?_⟩
  intro s f b loc h a changes
  exact ⟨byteOp_aluPlain_bit (op := fun a => a &&& ~~~(bitMask b)) h fun v k => bitOf_and_not_bitMask v b k,
    byteOp_aluPlain_bit (op := fun a => a ||| bitMask b) h fun v k => bitOf_or_bitMask v b k⟩

end Sys2Proof.Machine
end

section
/-! PROOFS. The statements of `43_bit_skip.md`: one bit of a file register is tested, and the next instruction is skipped if
it has the value that the instruction names (R190, R191). -/

namespace Sys2Proof.Machine

/-- Settles O17: both are the template `bitSkip`, BTFSC for the bit's value false and BTFSS for true. -/
theorem btfscAndBtfssSkip : Obligations.BtfscAndBtfssSkip := by
  refine ⟨fun f b => ⟨decodeInvertsEncode (.btfsc f b) rfl, decodeInvertsEncode (.btfss f b) rfl⟩, ?_⟩
  intro s f b loc h
  have hclear := bitSkip_ok b false h
  have hset := bitSkip_ok b true h
  rw [beq_false] at hclear
  rw [beq_true] at hset
  exact ⟨hclear, hset⟩

end Sys2Proof.Machine
end

section
/-! PROOFS. The statements of `44_literal.md`: the instructions that take their operand from the instruction word (R200 to
R207), and CLRW of `40_byte_oriented.md` (R148). -/

namespace Sys2Proof.Machine

/-- The template of a literal instruction, for a result known in numbers. -/
theorem literalOp_result {s : State} {r result : AluResult} (h : r = result) :
    literalOp s r = .next (literalResult s result.value (result.c.getD s.c) (result.dc.getD s.dc) (result.z.getD s.z)) :=
  h ▸ literalOp_eq s r

/-- Settles O18: `Add8` without a carry in, and the literal minus W. -/
theorem addlwAndSublwCompute : Obligations.AddlwAndSublwCompute := by
  refine ⟨fun k => ⟨decodeInvertsEncode (.addlw k) rfl, decodeInvertsEncode (.sublw k) rfl⟩, ?_⟩
  intro s k w l
  have hsub : sub8 k s.w = { value := BitVec.ofInt 8 ((l : Int) - w), c := some (decide (w ≤ l))
                             dc := some (decide (w % 16 ≤ l % 16)), z := some (decide (w = l)) } := by
    rw [sub8_eq, decide_eq_decide.2 (eq_comm (a := k.toNat))]
  exact ⟨literalOp_result (add8_eq s.w k false), literalOp_result hsub⟩

theorem literalOp_aluZ (s : State) (r : Byte) :
    literalOp s (aluZ r) = .next (literalResult s r s.c s.dc (decide (r.toNat = 0))) :=
  literalOp_result (aluZ_eq r)

/-- Settles O19: the three operations of the arithmetic unit, bit by bit. -/
theorem logicOnLiteralsSetsZ : Obligations.LogicOnLiteralsSetsZ := by
  refine ⟨fun k => ⟨decodeInvertsEncode (.andlw k) rfl, decodeInvertsEncode (.iorlw k) rfl,
    decodeInvertsEncode (.xorlw k) rfl⟩, ?_⟩
  intro s k gives
  exact ⟨⟨s.w &&& k, fun j => bitOf_and s.w k j, literalOp_aluZ s (s.w &&& k)⟩,
    ⟨s.w ||| k, fun j => bitOf_or s.w k j, literalOp_aluZ s (s.w ||| k)⟩,
    ⟨s.w ^^^ k, fun j => bitOf_xor s.w k j, literalOp_aluZ s (s.w ^^^ k)⟩⟩

/-- The mask of CLRW's row leaves out its two don't-care bits (R115). -/
theorem clrwRow_accepts (x : BitVec 2) : clrwRow.accepts (0b000001000000#12 ++ x) = true :=
  OpRow.accepts_iff.2 ⟨Laws.mask_high_field 0b000001000000#12 0b111111111111#12 x, rfl⟩

/-- Settles O20: MOVLW's result affects no flag, CLRW's affects Z alone. -/
theorem movlwAndClrwLoadW : Obligations.MovlwAndClrwLoadW :=
  ⟨fun k => decodeInvertsEncode (.movlw k) rfl, fun x => decode_of_clrwRow (clrwRow_accepts x),
    fun s k => ⟨literalOp_eq s (aluPlain k), literalOp_eq s { value := 0x00#8, z := some true }⟩⟩

theorem exec_movlb (s : State) (k : BitVec 5) :
    exec (.movlb k) s = .next { s with bsr := k, pc := s.pc + 1, cycles := s.cycles + 1 } := rfl

theorem exec_movlp (s : State) (k : BitVec 7) :
    exec (.movlp k) s = .next { s with pclath := k, pc := s.pc + 1, cycles := s.cycles + 1 } := rfl

/-- Settles O21: the next states are the two instructions' own equations. -/
theorem movlbAndMovlpLoad : Obligations.MovlbAndMovlpLoad :=
  ⟨fun k => decodeInvertsEncode (.movlb k) rfl, fun k => decodeInvertsEncode (.movlp k) rfl,
    fun s k p => ⟨exec_movlb s k, exec_movlp s p⟩⟩

end Sys2Proof.Machine
end

section
/-! PROOFS. The statements of `45_control.md`: where the branches, jumps, calls and returns go, and what they do to the
return stack (R221 to R228). -/

namespace Sys2Proof.Machine

/-! ### Targets, in numbers -/

/-- BRA's target (R221): the literal counts with its sign. -/
theorem braTarget_eq (pc : PC) (k : BitVec 9) : pc + 1 + k.signExtend 15 = BitVec.ofInt 15 (pc.toNat + 1 + k.toInt) := by
  simp [BitVec.ofInt_add, BitVec.signExtend]

/-- BRW's target (R222): W counts without a sign. -/
theorem brwTarget_eq (pc : PC) (w : Byte) : pc + 1 + w.setWidth 15 = BitVec.ofNat 15 (pc.toNat + 1 + w.toNat) := by
  simp [BitVec.ofNat_add]

/-- Two fields side by side, from their numbers. -/
theorem append_eq_ofNat {n m : Nat} (h : BitVec n) (l : BitVec m) :
    h ++ l = BitVec.ofNat (n + m) (h.toNat * 2 ^ m + l.toNat) := by
  rw [← toNat_append_fields, BitVec.ofNat_toNat, BitVec.setWidth_eq]

/-- The target of CALL and GOTO (R223, R225): PCLATH<6:3> selects one of sixteen pages of 2048 words. -/
theorem pageTarget_eq (s : State) (k : BitVec 11) :
    s.pageTarget k = BitVec.ofNat 15 (s.pclath.toNat / 8 * 2048 + k.toNat) := by
  have hpage : s.pclath.toNat / 2 ^ 3 < 2 ^ 4 := Nat.div_lt_of_lt_mul s.pclath.isLt
  rw [State.pageTarget, append_eq_ofNat, toNat_field, Nat.mod_eq_of_lt hpage]
  rfl

/-! ### Branches and jumps -/

/-- Settles O22: the next states are the two instructions' own, with the targets in numbers. -/
theorem braAndBrwBranchRelative : Obligations.BraAndBrwBranchRelative := by
  refine ⟨fun k => decodeInvertsEncode (.bra k) rfl, decodeInvertsEncode .brw rfl, fun s k => ?_⟩
  rw [← braTarget_eq, ← brwTarget_eq]
  exact ⟨rfl, rfl⟩

/-- Settles O23: the next state is the instruction's own, with the target in numbers. -/
theorem gotoJumpsInPage : Obligations.GotoJumpsInPage := by
  refine ⟨fun k => decodeInvertsEncode (.goto k) rfl, fun s k => ?_⟩
  rw [← pageTarget_eq]
  rfl

/-! ### Calls and returns -/

/-- Settles O24: both are the template `callTo`, each with its own target. -/
theorem callAndCallwPushAndJump : Obligations.CallAndCallwPushAndJump := by
  refine ⟨fun k => decodeInvertsEncode (.call k) rfl, decodeInvertsEncode .callw rfl, ?_⟩
  intro s k goes
  rw [← pageTarget_eq, ← pclTarget_eq]
  exact ⟨callTo_cases s (s.pageTarget k), callTo_cases s (s.pclath ++ s.w)⟩

/-- Settles O25: both are the template `returnWith`; RETURN has no effect of its own, RETLW's is the load of W. -/
theorem returnAndRetlwPop : Obligations.ReturnAndRetlwPop := by
  refine ⟨decodeInvertsEncode .ret rfl, fun k => decodeInvertsEncode (.retlw k) rfl, fun s k => ?_⟩
  obtain ⟨hret, hretEmpty⟩ := returnWith_cases s fun u => u
  obtain ⟨hretlw, hretlwEmpty⟩ := returnWith_cases s fun u => { u with w := k }
  exact ⟨fun h => ⟨hret h, hretlw h⟩, fun h => ⟨hretEmpty h, hretlwEmpty h⟩⟩

/-! ### Return from interrupt -/

theorem getLsbD_eq_decide {n : Nat} (x : BitVec n) (i : Nat) : x.getLsbD i = decide (x.toNat / 2 ^ i % 2 = 1) :=
  Nat.testBit_eq_decide_div_mod_eq

/-- `RestoreShadows()` (R304), in numbers: Z, DC, C are bits 2 to 0 of STATUS_SHAD, and each FSR is a pair of bytes. -/
theorem restoreShadows_eq (s : State) : s.restoreShadows = { s with
    w := s.shadow.wreg
    z := decide (s.shadow.status.toNat / 4 % 2 = 1), dc := decide (s.shadow.status.toNat / 2 % 2 = 1)
    c := decide (s.shadow.status.toNat % 2 = 1)
    bsr := s.shadow.bsr, pclath := s.shadow.pclath
    fsr0 := BitVec.ofNat 16 (s.shadow.fsr0h.toNat * 256 + s.shadow.fsr0l.toNat)
    fsr1 := BitVec.ofNat 16 (s.shadow.fsr1h.toNat * 256 + s.shadow.fsr1l.toNat) } := by
  simp only [State.restoreShadows, getLsbD_eq_decide, append_eq_ofNat, pow_zero, Nat.div_one, pow_one]
  rfl

theorem setGie_true_eq (s : State) :
    s.setGie true = { s with intcon := BitVec.ofNat 8 (s.intcon.toNat % 128 + 128) } :=
  congrArg (fun x => { s with intcon := x }) (setGie_intcon_eq s true)

/-- Settles O26: the template of the returns, whose effect here is the context restored and GIE set. -/
theorem retfieRestoresAndEnables : Obligations.RetfieRestoresAndEnables := by
  refine ⟨decodeInvertsEncode .retfie rfl, fun s => ?_⟩
  obtain ⟨hpop, hempty⟩ := returnWith_cases s fun u => u.restoreShadows.setGie true
  refine ⟨fun h => (hpop h).trans ?_, hempty⟩
  rw [setGie_true_eq, restoreShadows_eq]
  rfl

end Sys2Proof.Machine
end

section
/-! PROOFS. The statements of `46_inherent.md`: the instructions without a file operand or a literal that act on the
Watchdog, on OPTION_REG and the TRIS registers, and on the whole device (R240 to R245). -/

namespace Sys2Proof.Machine

/-! ### OPTION and TRIS -/

/-- A store to a register other than PCL is its write and one cycle at `pc + 1`. -/
theorem next_store_register {s u : State} {loc : Loc} {v : Byte} {affects : Bool} (hpcl : loc ≠ .pcl)
    (hcycle : note2Cycles loc = 0) (hwrite : writeLoc s loc v affects = u) :
    (.next (s.store loc v affects) : Result) = .next { u with pc := s.pc + 1, cycles := s.cycles + 1 } := by
  subst hwrite
  simp [State.store, State.continueAfterWrite, State.continueAt, hpcl, note2_eq, hcycle]

/-- Settles O29: each is the store of W to its register, whose implemented bits `Written` gives in numbers. -/
theorem optionAndTrisLoad : Obligations.OptionAndTrisLoad := by
  refine ⟨decodeInvertsEncode .optionW rfl, decodeInvertsEncode (.tris 5#3) rfl, decodeInvertsEncode (.tris 6#3) rfl,
    decodeInvertsEncode (.tris 7#3) rfl, fun s => ?_⟩
  exact ⟨next_store_register (loc := .optionReg) nofun rfl (writeLoc_written s .optionReg s.w false),
    next_store_register (loc := .trisa) nofun rfl (writeLoc_written s .trisa s.w false),
    next_store_register (loc := .trisb) nofun rfl (writeLoc_written s .trisb s.w false),
    next_store_register (loc := .trisc) nofun rfl (writeLoc_written s .trisc s.w false)⟩

/-! ### SLEEP -/

theorem exec_sleep_of_pending {s : State} (h : pendingFlags s = true) :
    exec .sleep s = .next { s with pc := s.pc + 1, cycles := s.cycles + 1 } := by
  have hirq : s.irqPending = true := pendingFlags_eq s ▸ h
  simp [exec, execSleep, hirq, State.continueAt]

theorem exec_sleep_of_not_pending {s : State} (h : pendingFlags s = false) :
    exec .sleep s = .next (s.enterSleep.continueAt (s.pc + 1) 1) := by
  have hirq : s.irqPending = false := pendingFlags_eq s ▸ h
  simp [exec, execSleep, hirq]

/-- Settles O31: the pending flags alone decide between a NOP and `enterSleep`; GIE plays no part. -/
theorem sleepStopsOrActsAsNop : Obligations.SleepStopsOrActsAsNop :=
  ⟨decodeInvertsEncode .sleep rfl, fun _ => ⟨exec_sleep_of_pending, exec_sleep_of_not_pending⟩⟩

/-! ### CLRWDT and NOP -/

theorem exec_clrwdt (s : State) : exec .clrwdt s =
    .next { s with wdtRunning := false, nTO := true, nPD := true, pc := s.pc + 1, cycles := s.cycles + 1 } := rfl

theorem exec_nop (s : State) : exec .nop s = .next { s with pc := s.pc + 1, cycles := s.cycles + 1 } := rfl

/-- Settles O28: the next states are the two instructions' own equations. -/
theorem clrwdtAndNop : Obligations.ClrwdtAndNop :=
  ⟨decodeInvertsEncode .clrwdt rfl, decodeInvertsEncode .nop rfl, fun s => ⟨exec_clrwdt s, exec_nop s⟩⟩

/-! ### RESET -/

/-- A reset by the instruction is one that keeps W, and its cause keeps nTO, nPD and every bit of PCON but nRI (R352). -/
theorem deviceReset_resetInstruction (s : State) :
    deviceReset .resetInstruction s = { resetKeeping s with pcon := { s.pcon with nRI := false } } :=
  warmReset_eq s .resetInstruction

/-- Settles O30: the reset is of the state whose cycle is already counted. -/
theorem resetInstructionResets : Obligations.ResetInstructionResets :=
  ⟨decodeInvertsEncode .reset rfl, fun s =>
    congrArg Host.Outcome.next (deviceReset_resetInstruction { s with cycles := s.cycles + 1 })⟩

end Sys2Proof.Machine
end

section
/-! PROOFS. The statements of `47_compiler_optimized.md`: the addition to a pointer, and the moves through one (R260 to
R265). -/

namespace Sys2Proof.Machine

/-! ### ADDFSR -/

theorem exec_addfsr (s : State) (n : FsrSel) (k : BitVec 6) :
    exec (.addfsr n k) s = .next { s.setFsr n (BitVec.ofInt 16 ((s.fsr n).toNat + k.toInt)) with
      pc := s.pc + 1, cycles := s.cycles + 1 } := by
  rw [← indexed_eq]
  cases n <;> rfl

/-- Settles O32: `exec_addfsr` for the two pointers. -/
theorem addfsrAddsToThePair : Obligations.AddfsrAddsToThePair :=
  ⟨fun n k => decodeInvertsEncode (.addfsr n k) rfl, fun s k => ⟨exec_addfsr s .fsr0 k, exec_addfsr s .fsr1 k⟩⟩

/-! ### Loads through a pointer -/

theorem State.loadW_eq (s : State) (loc : Loc) :
    s.loadW loc = { withRead s loc with w := readLoc s loc, z := decide ((readLoc s loc).toNat = 0) } := by
  rw [State.loadW, afterRead_eq, isZero_eq]

/-- A load touches no pointer, so before it or after it the pointer is updated alike; the mode decides only which pointer
the byte is read under. -/
theorem State.loadW_withUpdate_eq (s : State) (n : FsrSel) (mm : PtrMode) (loc : Loc) :
    ((s.beforeMove n mm).loadW loc).afterMove n mm (s.fsr n) =
      { withRead (s.setFsr n (pointerAfter mm (s.fsr n))) loc with
        w := readLoc (s.beforeMove n mm) loc, z := decide ((readLoc (s.beforeMove n mm) loc).toNat = 0) } := by
  rw [State.loadW_eq]
  cases mm with
  | preInc | preDec => rfl
  | postInc | postDec => cases n <;> rfl

theorem exec_moviwMod {s : State} {n : FsrSel} {mm : PtrMode} {loc : Loc}
    (h : locateFsr s.config.device (pointerUsed mm (s.fsr n)) = .ok loc) :
    exec (.moviwMod n mm) s = .next { withRead (s.setFsr n (pointerAfter mm (s.fsr n))) loc with
      w := readLoc (s.beforeMove n mm) loc, z := decide ((readLoc (s.beforeMove n mm) loc).toNat = 0)
      pc := s.pc + 1, cycles := s.cycles + 1 + note2Cycles loc } := by
  simp only [exec, execMoviwMod, h, State.loadW_withUpdate_eq, State.continueAt, note2_eq, withRead, State.setFsr_cycles,
    Nat.add_assoc]

/-- Settles O33: the four modes of `exec_moviwMod`, each with its two pointers. -/
theorem moviwWithUpdateLoads : Obligations.MoviwWithUpdateLoads := by
  have word (n : FsrSel) (mm : PtrMode) := decodeInvertsEncode (.moviwMod n mm) rfl
  refine ⟨fun n => ⟨word n .preInc, word n .preDec, word n .postInc, word n .postDec⟩, ?_⟩
  intro s n loc loads
  exact ⟨exec_moviwMod (mm := .preInc), exec_moviwMod (mm := .preDec), exec_moviwMod (mm := .postInc),
    exec_moviwMod (mm := .postDec)⟩

theorem exec_moviwIdx {s : State} {n : FsrSel} {k : BitVec 6} {loc : Loc}
    (h : locateFsr s.config.device (s.indexed n k) = .ok loc) :
    exec (.moviwIdx n k) s = .next { withRead s loc with
      w := readLoc s loc, z := decide ((readLoc s loc).toNat = 0)
      pc := s.pc + 1, cycles := s.cycles + 1 + note2Cycles loc } := by
  simp only [exec, execMoviwIdx, h, State.loadW_eq, State.continueAt, note2_eq, withRead, Nat.add_assoc]

/-- Settles O34: `exec_moviwIdx`, with the address in numbers. -/
theorem moviwIndexedLoads : Obligations.MoviwIndexedLoads :=
  ⟨fun n k => decodeInvertsEncode (.moviwIdx n k) rfl, fun s n k _ h => exec_moviwIdx (indexed_eq s n k ▸ h)⟩

/-! ### Stores through a pointer -/

/-- Where the instruction goes on does not depend on the pointers. -/
theorem State.continueAfterWrite_afterMove (s : State) (n : FsrSel) (mm : PtrMode) (p : FsrAddr) (loc : Loc) (v : Byte) :
    (s.afterMove n mm p).continueAfterWrite loc v = (s.continueAfterWrite loc v).afterMove n mm p := by
  unfold State.continueAfterWrite
  cases mm with
  | preInc | preDec => rfl
  | postInc | postDec => cases n <;> split <;> rfl

/-- MOVWI in every mode is the store of W between the two halves of the pointer's update (R264). -/
theorem exec_movwiMod {s : State} {n : FsrSel} {mm : PtrMode} {loc : Loc}
    (h : locateFsr s.config.device (pointerUsed mm (s.fsr n)) = .ok loc) :
    exec (.movwiMod n mm) s = .next (((s.beforeMove n mm).store loc s.w false).afterMove n mm (s.fsr n)) := by
  simp only [exec, execMovwiMod, h, State.continueAfterWrite_afterMove, State.store]

/-- Settles O35: the store is `store_stored`, from the updated pointer in the pre modes and under the old one in the post
modes, which then set the pair. -/
theorem movwiWithUpdateStores : Obligations.MovwiWithUpdateStores := by
  have word (n : FsrSel) (mm : PtrMode) := decodeInvertsEncode (.movwiMod n mm) rfl
  refine ⟨fun n => ⟨word n .preInc, word n .preDec, word n .postInc, word n .postDec⟩, ?_⟩
  intro s n loc p
  have hstored (u : State) : Stored u loc s.w false (u.store loc s.w false) := store_stored u loc s.w false
  refine ⟨fun h => ?_, fun h => ?_, fun h => ⟨?_, ?_⟩⟩
  · exact ⟨_, exec_movwiMod (mm := .preInc) h, hstored (s.setFsr n (p + 1))⟩
  · exact ⟨_, exec_movwiMod (mm := .preDec) h, hstored (s.setFsr n (p - 1))⟩
  · exact ⟨_, exec_movwiMod (mm := .postInc) h, hstored s⟩
  · exact ⟨_, exec_movwiMod (mm := .postDec) h, hstored s⟩

theorem exec_movwiIdx {s : State} {n : FsrSel} {k : BitVec 6} {loc : Loc}
    (h : locateFsr s.config.device (s.indexed n k) = .ok loc) :
    exec (.movwiIdx n k) s = .next (s.store loc s.w false) := by
  simp only [exec, execMovwiIdx, h]

/-- Settles O36: `exec_movwiIdx`, with the address in numbers. -/
theorem movwiIndexedStores : Obligations.MovwiIndexedStores :=
  ⟨fun n k => decodeInvertsEncode (.movwiIdx n k) rfl, fun s n k loc h =>
    ⟨s.store loc s.w false, exec_movwiIdx (indexed_eq s n k ▸ h), store_stored s loc s.w false⟩⟩

end Sys2Proof.Machine
end

section
/-! PROOFS. The statements of `60_exceptions.md`: what stops a step (R300, R317), interrupt entry and the return from it
(R302 to R305), the Watchdog (R311), Sleep and wake-up (R312), and the stack's resets (R313). -/

namespace Sys2Proof.Machine

/-! ### The stack's resets -/

theorem exec_push_full {s : State} {i : Instr} (hi : pushes i = true) (hfull : s.stkptr = 0x0F#5) :
    exec i s = overflowOutcome s := by
  cases i with
  | call k => exact (callTo_cases s (s.pageTarget k)).2 hfull
  | callw => exact (callTo_cases s (s.pclath ++ s.w)).2 hfull
  | _ => cases hi

theorem exec_pop_empty {s : State} {i : Instr} (hi : pops i = true) (hempty : s.stkptr = 0x1F#5) :
    exec i s = underflowOutcome s := by
  cases i with
  | ret | retlw _ | retfie => exact (returnWith_cases s _).2 hempty
  | _ => cases hi

theorem overflowOutcome_of_stvren {s : State} (h : s.config.stvren = true) :
    overflowOutcome s = .next { resetKeeping s with pcon := { s.pcon with stkovf := true } } := by
  simp only [overflowOutcome, h, if_true]

theorem underflowOutcome_of_stvren {s : State} (h : s.config.stvren = true) :
    underflowOutcome s = .next { resetKeeping s with pcon := { s.pcon with stkunf := true } } := by
  simp only [underflowOutcome, h, if_true]

theorem overflowOutcome_of_not_stvren {s : State} (h : s.config.stvren = false) :
    overflowOutcome s = .refused .stackWrap := by
  simp only [overflowOutcome, h, Bool.false_eq_true, if_false]

theorem underflowOutcome_of_not_stvren {s : State} (h : s.config.stvren = false) :
    underflowOutcome s = .refused .stackWrap := by
  simp only [underflowOutcome, h, Bool.false_eq_true, if_false]

/-- A CPU that enters the interrupt: with room on the stack, and with a full stack. -/
theorem step_of_entersNow_cases {s s' : State} (h : EntersNow s s') :
    (s'.stkptr ≠ 0x0F#5 → ∃ t, step s = .next t ∧ EntersInterrupt s' t)
    ∧ (s'.stkptr = 0x0F#5 → step s = overflowOutcome s') := by
  rw [step_of_entersNow h]
  exact interruptEntry_cases s'

/-- With GIE and an enabled flag pending, an awake CPU that no wake-up occupies enters the interrupt (R302, R303). -/
theorem entersNow_of_request {s s' : State} (ht : TurnOf s .cpu s') (ha : s'.asleep = false) (hw : s'.wake = .settled)
    (hg : gieBit s' = true) (hp : pendingFlags s' = true) : EntersNow s s' :=
  ⟨ht, ha, .inr ⟨hw, by rw [hg, hp, Bool.and_self]⟩⟩

/-- Settles O27: each of the five instructions, and interrupt entry, comes to the outcome of an overflow or of an
underflow, in which STVREN chooses. -/
theorem stackTroubleResetsOrRefuses : Obligations.StackTroubleResetsOrRefuses := by
  refine ⟨fun s i hfull hi => ?_, fun s i hempty hi => ?_, fun s s' ht ha hw hg hp => ?_⟩
  · have hpush : pushes i = true := by
      obtain rfl | ⟨k, rfl⟩ := hi <;> rfl
    rw [exec_push_full hpush hfull]
    exact ⟨fun h => ⟨_, overflowOutcome_of_stvren h, rfl, rfl, rfl, rfl, rfl, rfl⟩, overflowOutcome_of_not_stvren⟩
  · have hpop : pops i = true := by
      obtain rfl | rfl | ⟨k, rfl⟩ := hi <;> rfl
    rw [exec_pop_empty hpop hempty]
    exact ⟨fun h => ⟨_, underflowOutcome_of_stvren h, rfl, rfl, rfl, rfl, rfl, rfl⟩, underflowOutcome_of_not_stvren⟩
  · exact (step_of_entersNow_cases (entersNow_of_request ht ha hw hg hp)).2

/-! ### Interrupt entry and return -/

/-- Settles O46: such a CPU enters the interrupt, which is all that its step does. -/
theorem interruptEntryComesFirst : Obligations.InterruptEntryComesFirst :=
  fun _ _ ht ha hw hg hp => step_of_entersNow_cases (entersNow_of_request ht ha hw hg hp)

/-- A pointer is its two bytes side by side. -/
theorem fsr_bytes_append (p : FsrAddr) : p.extractLsb' 8 8 ++ p.extractLsb' 0 8 = p := by
  apply BitVec.eq_of_toNat_eq
  rw [toNat_append_fields, toNat_field, toNat_field]
  have := p.isLt
  omega

/-- The three flags come back from the bits they were saved in. -/
theorem flags_of_saved_bits : ∀ z dc c : Bool,
    (carryBit z ++ carryBit dc ++ carryBit c).getLsbD 2 = z
    ∧ (carryBit z ++ carryBit dc ++ carryBit c).getLsbD 1 = dc
    ∧ (carryBit z ++ carryBit dc ++ carryBit c).getLsbD 0 = c := by
  decide

/-- Restoring what `s` saved brings back the context of `s` (R303, R304). -/
theorem restoreShadows_savedContext {s h : State} (hshadow : h.shadow = savedContext s) :
    h.restoreShadows = { h with w := s.w, z := s.z, dc := s.dc, c := s.c, bsr := s.bsr, pclath := s.pclath
                                fsr0 := s.fsr0, fsr1 := s.fsr1 } := by
  obtain ⟨hz, hdc, hc⟩ := flags_of_saved_bits s.z s.dc s.c
  simp only [State.restoreShadows, hshadow, ← context_eq, State.context, hz, hdc, hc, fsr_bytes_append]

theorem gie_setGie_true (s : State) : (s.setGie true).gie = true :=
  Laws.bit_above_low_field (carryBit true) (s.intcon.extractLsb' 0 7) 7 le_rfl

/-- RETFIE with the context of `s` in the shadow registers brings that context back, at the popped PC, with GIE set. -/
theorem exec_retfie_savedContext {s h : State} (hne : h.stkptr ≠ 0x1F#5) (hshadow : h.shadow = savedContext s) :
    exec .retfie h = .next ((({ h with
      stkptr := h.stkptr - 1, w := s.w, z := s.z, dc := s.dc, c := s.c, bsr := s.bsr, pclath := s.pclath
      fsr0 := s.fsr0, fsr1 := s.fsr1 } : State).setGie true).continueAt (entryAt h h.stkptr.toNat) 2) := by
  refine ((returnWith_cases h fun u => u.restoreShadows.setGie true).1 hne).trans ?_
  rw [restoreShadows_savedContext (h := { h with stkptr := h.stkptr - 1 }) hshadow]

/-- Settles O59: RETFIE pops the entry that interrupt entry pushed and restores what it saved. -/
theorem interruptThenRetfieRestores : Obligations.InterruptThenRetfieRestores := by
  intro s t h hsched ha hw hg hp hroom hlast hstep hptr hentry hshadow
  have hnow : EntersNow s s := entersNow_of_request (.inl ⟨hsched, rfl, rfl⟩) ha hw hg hp
  obtain ⟨u, hu, hframe, hpushed, -⟩ := (step_of_entersNow_cases hnow).1 hroom
  obtain rfl : u = t := by
    rw [hu] at hstep
    injection hstep
  have hsaved : h.shadow = savedContext s := hshadow.trans (congrArg State.shadow hframe :)
  have huptr : u.stkptr = s.stkptr + 1 := (congrArg State.stkptr hframe :)
  have hsel : h.stkptr = s.stkptr + 1 := hptr.trans huptr
  have hne : h.stkptr ≠ 0x1F#5 := by
    rw [hsel]
    bv_omega
  have hslot : u.stkptr.toNat % 16 = (s.stkptr.toNat + 1) % 16 := by
    rw [huptr, BitVec.toNat_add]
    simp
  have hpc : entryAt h h.stkptr.toNat = s.pc :=
    calc entryAt h h.stkptr.toNat
      _ = entryAt u u.stkptr.toNat := hentry
      _ = entryAt u (s.stkptr.toNat + 1) := entryAt_mod u hslot
      _ = s.pc := hpushed
  refine ⟨_, exec_retfie_savedContext hne hsaved, hpc, rfl, rfl, rfl, rfl, rfl, rfl, rfl, rfl, ?_, ?_⟩
  · show h.stkptr - 1 = s.stkptr
    rw [hsel, BitVec.add_sub_cancel]
  · rw [gieBit_eq]
    exact gie_setGie_true _

/-! ### The instruction after SLEEP -/

/-- Awake, with interrupt entry due. -/
def EntryDue (s : State) : Prop := s.wake = .entryDue ∧ s.asleep = false

theorem entryDue_keptByUpdates : KeptByUpdates EntryDue where
  registers := fun _ _ _ _ _ _ _ _ _ _ _ _ h => h
  write := fun s loc v affects _ h =>
    ⟨(writeLoc_wake s loc v affects).trans h.1, (writeLoc_asleep s loc v affects).trans h.2⟩
  stack := fun _ _ _ h => h
  gie := fun _ _ h => h

theorem EntryDue.callTo {s t : State} {target : PC} (hroom : s.stkptr ≠ 0x0F#5) (ht : callTo s target = .next t)
    (h : EntryDue s) : EntryDue t := by
  obtain ⟨u, hu, -, hframe⟩ := (callTo_cases s target).1 hroom
  exact KeptByUpdates.next_of (hu.symm.trans ht) (hframe ▸ h)

/-- Only a reset or a SLEEP takes the due entry away: every other instruction keeps it, with room for its push or an entry
for its pop. -/
theorem EntryDue.exec {s t : State} {i : Instr} (hreset : i ≠ .reset) (hsleep : i ≠ .sleep)
    (hpush : pushes i = true → s.stkptr ≠ 0x0F#5) (hpop : pops i = true → s.stkptr ≠ 0x1F#5) (ht : exec i s = .next t)
    (h : EntryDue s) : EntryDue t := by
  by_cases hc : i = .clrwdt
  · subst hc
    exact KeptByUpdates.next_of ht h
  · by_cases hm : mayReset i = false
    · exact entryDue_keptByUpdates.execPlain hc hsleep hm ht h
    · cases i with
      | reset => exact absurd rfl hreset
      | call k => exact h.callTo (hpush rfl) ht
      | callw => exact h.callTo (hpush rfl) ht
      | ret | retlw _ | retfie => exact KeptByUpdates.next_of (((returnWith_cases s _).1 (hpop rfl)).symm.trans ht) h
      | _ => exact absurd rfl hm

/-- The instruction resets the device: RESET, a push on a full stack, a pop of an empty one. -/
def ResetsDevice (s : State) (i : Instr) : Prop :=
  i = .reset ∨ (pushes i = true ∧ s.stkptr = 0x0F#5) ∨ (pops i = true ∧ s.stkptr = 0x1F#5)

/-- A CPU after a reset: awake and at the reset vector, no entry due, the stack empty, no interrupt enabled. -/
def FreshlyReset (t : State) : Prop :=
  t.wake = .settled ∧ t.asleep = false ∧ t.pc = 0x0000#15 ∧ t.stkptr = 0x1F#5 ∧ t.intcon = 0x00#8

theorem freshlyReset_of_overflow {s t : State} (h : overflowOutcome s = .next t) : FreshlyReset t := by
  unfold overflowOutcome at h
  split at h
  · exact KeptByUpdates.next_of h ⟨rfl, rfl, rfl, rfl, rfl⟩
  · cases h

theorem freshlyReset_of_underflow {s t : State} (h : underflowOutcome s = .next t) : FreshlyReset t := by
  unfold underflowOutcome at h
  split at h
  · exact KeptByUpdates.next_of h ⟨rfl, rfl, rfl, rfl, rfl⟩
  · cases h

theorem ResetsDevice.freshlyReset {s t : State} {i : Instr} (h : ResetsDevice s i) (ht : exec i s = .next t) :
    FreshlyReset t := by
  obtain rfl | ⟨hpush, hfull⟩ | ⟨hpop, hempty⟩ := h
  · exact KeptByUpdates.next_of ht ⟨rfl, rfl, rfl, rfl, rfl⟩
  · exact freshlyReset_of_overflow (exec_push_full hpush hfull ▸ ht)
  · exact freshlyReset_of_underflow (exec_pop_empty hpop hempty ▸ ht)

/-- The instruction after SLEEP, run with the entry due: it keeps the entry due, or resets the device, or sleeps. -/
theorem exec_of_entryDue {s t : State} {i : Instr} (ht : exec i s = .next t) (h : EntryDue s) :
    (¬ ResetsDevice s i → ¬ (i = .sleep ∧ pendingFlags s = false) → EntryDue t)
    ∧ (ResetsDevice s i → FreshlyReset t)
    ∧ (i = .sleep ∧ pendingFlags s = false → t.wake = .settled ∧ t.asleep = true) := by
  refine ⟨fun hresets hsleeps => ?_, fun hresets => hresets.freshlyReset ht, ?_⟩
  · by_cases hsl : i = .sleep
    · subst hsl
      have hpending : pendingFlags s = true := by simpa using hsleeps
      exact KeptByUpdates.next_of ((exec_sleep_of_pending hpending).symm.trans ht) h
    · exact h.exec (fun he => hresets (.inl he)) hsl (fun hp hf => hresets (.inr (.inl ⟨hp, hf⟩)))
        (fun hp hf => hresets (.inr (.inr ⟨hp, hf⟩))) ht
  · rintro ⟨rfl, hquiet⟩
    exact KeptByUpdates.next_of (P := fun u => u.wake = .settled ∧ u.asleep = true)
      ((exec_sleep_of_not_pending hquiet).symm.trans ht) ⟨rfl, rfl⟩

/-- Settles O48: the instruction after SLEEP runs with the entry due, and the entry that is due is taken. -/
theorem instructionAfterSleepThenEntry : Obligations.InstructionAfterSleepThenEntry := by
  refine ⟨?_, fun s s' ht ha hw => step_of_entersNow_cases ⟨ht, ha, .inl hw⟩⟩
  intro s s' t i hturn ha hw hd hstep resets sleeps
  rw [(stepRunsTheDecodedInstruction s s' i hturn ha hd).2 hw] at hstep
  exact exec_of_entryDue (s := { s' with wake := .entryDue }) hstep ⟨rfl, ha⟩

/-! ### The platform -/

theorem State.wakeUp_eq (s : State) : s.wakeUp =
    if s.asleep && pendingFlags s then { s with asleep := false, wake := if gieBit s then .resumeFirst else .settled }
    else s := by
  rw [pendingFlags_eq, gieBit_eq]
  rfl

theorem bitOf_tmr0if : ∀ k : Fin 8, bitOf 0x04#8 k = (k == 2) := by decide

theorem bitOf_intf : ∀ k : Fin 8, bitOf 0x02#8 k = (k == 1) := by decide

/-- A new bit 0 under the seven others. -/
theorem bitOf_replace_bit0 (v : Byte) (b : Bool) (k : Fin 8) :
    bitOf (v.extractLsb' 1 7 ++ carryBit b) k = if k = 0 then b else bitOf v k := by
  rw [bitOf_eq_getLsbD, bitOf_eq_getLsbD]
  cases k using Fin.cases with
  | zero =>
    rw [if_pos rfl, BitVec.getLsbD_append]
    cases b <;> rfl
  | succ j =>
    rw [Laws.bit_above_low_field _ _ _ (by simp), BitVec.getLsbD_extractLsb', if_neg (Fin.succ_ne_zero j)]
    simp [Nat.add_comm]

/-- Settles O49: the event is `platformEvent`, bit by bit, and `wakeUp` follows it. -/
theorem platformSetsFlagsAndWakes : Obligations.PlatformSetsFlagsAndWakes := by
  intro s s' e ht
  refine ⟨s'.platformEvent e, ?_, ?_⟩
  · cases e with
    | irqLine level => rfl
    | tmr0Overflow => exact ⟨rfl, fun k => (bitOf_or s'.intcon 0x04#8 k).trans (by rw [bitOf_tmr0if])⟩
    | intEdge => exact ⟨rfl, fun k => (bitOf_or s'.intcon 0x02#8 k).trans (by rw [bitOf_intf])⟩
    | pinChange level => exact ⟨rfl, bitOf_replace_bit0 s'.intcon level⟩
  · rw [step_of_turn ht, ← State.wakeUp_eq]
    rfl

/-! ### The Watchdog -/

theorem State.wdtEnabled_eq (s : State) : s.wdtEnabled = watchdogEnabled s := by
  unfold State.wdtEnabled watchdogEnabled
  cases s.config.wdtMode with
  | software => exact (bitOf_eq_getLsbD s.wdtcon 0).symm
  | disabled | awakeOnly | always => rfl

/-- A reset by the Watchdog is one that keeps W; its cause clears nTO and nRWDT and keeps nPD (R352). -/
theorem deviceReset_watchdogTimeout (s : State) : deviceReset .watchdogTimeout s =
    { resetKeeping s with nTO := false, pcon := { s.pcon with nRWDT := false } } :=
  warmReset_eq s .watchdogTimeout

theorem State.wdtTimeout_of_disabled {s : State} (h : watchdogEnabled s = false) : s.wdtTimeout = s := by
  simp [State.wdtTimeout, State.wdtEnabled_eq, h]

theorem State.wdtTimeout_of_awake {s : State} (h : watchdogEnabled s = true) (ha : s.asleep = false) :
    s.wdtTimeout = { resetKeeping s with nTO := false, pcon := { s.pcon with nRWDT := false } } := by
  simp [State.wdtTimeout, State.wdtEnabled_eq, h, ha, deviceReset_watchdogTimeout]

theorem State.wdtTimeout_of_asleep {s : State} (h : watchdogEnabled s = true) (ha : s.asleep = true) :
    s.wdtTimeout = { s with wdtRunning := false, nTO := false, nPD := false, asleep := false } := by
  simp [State.wdtTimeout, State.wdtEnabled_eq, h, ha, State.wdtClear]

theorem State.wdtRun_eq (s : State) :
    s.wdtRun = if watchdogEnabled s then { s with wdtRunning := true } else s := by
  rw [State.wdtRun, State.wdtEnabled_eq]

/-- Settles O50: the two turns are `wdtTimeout` and `wdtRun`, which ask whether the Watchdog is enabled. -/
theorem watchdogTimeoutResetsOrWakes : Obligations.WatchdogTimeoutResetsOrWakes := by
  refine ⟨fun s s' ht => ?_, fun s s' ht => ?_⟩
  · have hstep : step s = .next s'.wdtTimeout := step_of_turn ht
    rw [hstep]
    refine ⟨fun h => ?_, fun h ha => ?_, fun h ha => ?_⟩
    · rw [State.wdtTimeout_of_disabled h]
    · rw [State.wdtTimeout_of_awake h ha]
    · rw [State.wdtTimeout_of_asleep h ha]
  · have hstep : step s = .next s'.wdtRun := step_of_turn ht
    rw [hstep, State.wdtRun_eq]
    refine ⟨fun h => ?_, fun h => ?_⟩
    · simp only [h, Bool.false_eq_true, if_false]
    · simp only [h, if_true]

/-! ### What stops a step -/

/-- The file operand of an instruction. -/
def fileOperand : Instr → Option FileAddr
  | .addwf f _ | .addwfc f _ | .andwf f _ | .asrf f _ | .lslf f _ | .lsrf f _ | .clrf f | .comf f _ | .decf f _
  | .incf f _ | .iorwf f _ | .movf f _ | .movwf f | .rlf f _ | .rrf f _ | .subwf f _ | .subwfb f _ | .swapf f _
  | .xorwf f _ | .decfsz f _ | .incfsz f _ | .bcf f _ | .bsf f _ | .btfsc f _ | .btfss f _ => some f
  | _ => none

theorem mem_fileInstructions_iff {i : Instr} {f : FileAddr} :
    (∃ d b, i ∈ fileInstructions f d b) ↔ fileOperand i = some f := by
  constructor
  · rintro ⟨d, b, h⟩
    revert i
    simp only [fileInstructions, List.forall_mem_cons, List.not_mem_nil, false_imp_iff, implies_true, and_true,
      fileOperand]
  · intro h
    cases i with
    | addwf g d | addwfc g d | andwf g d | asrf g d | lslf g d | lsrf g d | comf g d | decf g d | incf g d | iorwf g d
    | movf g d | rlf g d | rrf g d | subwf g d | subwfb g d | swapf g d | xorwf g d | decfsz g d | incfsz g d =>
      cases h
      exact ⟨d, 0#3, by simp [fileInstructions]⟩
    | bcf g b | bsf g b | btfsc g b | btfss g b =>
      cases h
      exact ⟨.w, b, by simp [fileInstructions]⟩
    | clrf g | movwf g =>
      cases h
      exact ⟨.w, 0#3, by simp [fileInstructions]⟩
    | _ => cases h

/-- The pointer that MOVIW or MOVWI names, and the address it makes its access at (R260 e). -/
def moveAddress (s : State) : Instr → Option (FsrSel × FsrAddr)
  | .moviwMod n mm | .movwiMod n mm => some (n, pointerUsed mm (s.fsr n))
  | .moviwIdx n k | .movwiIdx n k => some (n, s.indexed n k)
  | _ => none

theorem accessesThrough_iff {s : State} {i : Instr} {n : FsrSel} {ea : FsrAddr} : AccessesThrough s i n ea ↔
    (fileOperand i = some (indirectOperand n) ∧ ea = s.fsr n) ∨ moveAddress s i = some (n, ea) := by
  rw [← mem_fileInstructions_iff]
  unfold AccessesThrough
  refine or_congr (by simp only [exists_and_right]) ⟨?_, fun h => ?_⟩
  · rintro (⟨mm, hi, rfl⟩ | ⟨k, hi, rfl⟩)
    · obtain rfl | rfl := hi <;> cases mm <;> rfl
    · rw [← indexed_eq]
      obtain rfl | rfl := hi <;> rfl
  · cases i with
    | moviwMod m mm | movwiMod m mm =>
      cases h
      exact .inl ⟨mm, by simp, by cases mm <;> rfl⟩
    | moviwIdx m k | movwiIdx m k =>
      cases h
      exact .inr ⟨k, by simp, indexed_eq s n k⟩
    | _ => cases h

/-- The instruction makes its access through a pointer at an INDF address (R79). -/
def AccessesIndf (s : State) (i : Instr) : Prop :=
  ∃ (n : FsrSel) (ea : FsrAddr), AccessesThrough s i n ea ∧ ea.toNat ≤ 0x0FFF ∧ ea.toNat % 128 ≤ 1

theorem accessesIndf_of_file {s : State} {i : Instr} {f : FileAddr} {r : Refusal} (hf : fileOperand i = some f)
    (hm : moveAddress s i = none) : r = .indirectINDF ∧ AccessesIndf s i ↔ locateFile s f = .error r := by
  simp [locateFile_error, AccessesIndf, accessesThrough_iff, hf, hm, and_assoc]

theorem accessesIndf_of_move {s : State} {i : Instr} {n : FsrSel} {ea : FsrAddr} {r : Refusal}
    (hf : fileOperand i = none) (hm : moveAddress s i = some (n, ea)) :
    r = .indirectINDF ∧ AccessesIndf s i ↔ locateFsr s.config.device ea = .error r := by
  simp [locateFsr_error, AccessesIndf, accessesThrough_iff, hf, hm]

theorem not_accessesIndf {s : State} {i : Instr} (hf : fileOperand i = none) (hm : moveAddress s i = none) :
    ¬ AccessesIndf s i := by
  simp [AccessesIndf, accessesThrough_iff, hf, hm]

/-- The register that DECFSZ or INCFSZ with d = 1 writes. -/
def skipDestination : Instr → Option FileAddr
  | .decfsz f .f | .incfsz f .f => some f
  | _ => none

theorem skipDestination_eq_some {i : Instr} {f : FileAddr} :
    skipDestination i = some f ↔ i = .decfsz f .f ∨ i = .incfsz f .f := by
  refine ⟨fun h => ?_, ?_⟩
  · cases i with
    | decfsz g d | incfsz g d =>
      cases d with
      | w => cases h
      | f =>
        cases h
        simp
    | _ => cases h
  · rintro (rfl | rfl) <;> rfl

/-- The refusals that the spec raises for an instruction in `s`: a push or a pop that wraps the stack (R32), an access to an
INDF address (R79), a skip instruction that writes PCL (R28). -/
def RefusesFor (s : State) (i : Instr) (r : Refusal) : Prop :=
  (r = .stackWrap ∧ s.config.stvren = false
    ∧ ((pushes i = true ∧ s.stkptr = 0x0F#5) ∨ (pops i = true ∧ s.stkptr = 0x1F#5)))
  ∨ (r = .indirectINDF ∧ AccessesIndf s i)
  ∨ (r = .skipOnPCL ∧ ∃ f, skipDestination i = some f ∧ locateFile s f = .ok .pcl)

section
variable {s : State} {i : Instr} {r : Refusal} {f : FileAddr} {n : FsrSel} {ea : FsrAddr}

theorem refusesFor_file (hpush : pushes i = false) (hpop : pops i = false) (hskip : skipDestination i = none)
    (hf : fileOperand i = some f) (hm : moveAddress s i = none) : locateFile s f = .error r ↔ RefusesFor s i r := by
  rw [← accessesIndf_of_file hf hm]
  simp [RefusesFor, hpush, hpop, hskip]

theorem refusesFor_skip (hpush : pushes i = false) (hpop : pops i = false) (hskip : skipDestination i = some f)
    (hf : fileOperand i = some f) (hm : moveAddress s i = none) :
    locateFile s f = .error r ∨ (locateFile s f = .ok .pcl ∧ r = .skipOnPCL) ↔ RefusesFor s i r := by
  rw [← accessesIndf_of_file hf hm]
  simp [RefusesFor, hpush, hpop, hskip, and_comm]

theorem refusesFor_move (hpush : pushes i = false) (hpop : pops i = false) (hskip : skipDestination i = none)
    (hf : fileOperand i = none) (hm : moveAddress s i = some (n, ea)) :
    locateFsr s.config.device ea = .error r ↔ RefusesFor s i r := by
  rw [← accessesIndf_of_move hf hm]
  simp [RefusesFor, hpush, hpop, hskip]

theorem refusesFor_push (hpush : pushes i = true) (hpop : pops i = false) (hskip : skipDestination i = none)
    (hf : fileOperand i = none) (hm : moveAddress s i = none) :
    r = .stackWrap ∧ s.config.stvren = false ∧ s.stkptr = 0x0F#5 ↔ RefusesFor s i r := by
  simp [RefusesFor, hpush, hpop, hskip, not_accessesIndf hf hm]

theorem refusesFor_pop (hpush : pushes i = false) (hpop : pops i = true) (hskip : skipDestination i = none)
    (hf : fileOperand i = none) (hm : moveAddress s i = none) :
    r = .stackWrap ∧ s.config.stvren = false ∧ s.stkptr = 0x1F#5 ↔ RefusesFor s i r := by
  simp [RefusesFor, hpush, hpop, hskip, not_accessesIndf hf hm]

theorem not_refusesFor (hpush : pushes i = false) (hpop : pops i = false) (hskip : skipDestination i = none)
    (hf : fileOperand i = none) (hm : moveAddress s i = none) : ¬ RefusesFor s i r := by
  simp [RefusesFor, hpush, hpop, hskip, not_accessesIndf hf hm]

theorem byteOp_refused {d : Dest} {op : Byte → AluResult} :
    byteOp s f d op = .refused r ↔ locateFile s f = .error r := by
  obtain ⟨hop, -, -, -, -⟩ := templates_refused (s := s) (f := f) (r := r)
  exact hop d op

theorem fileStore_refused {a : AluResult} : fileStore s f a = .refused r ↔ locateFile s f = .error r := by
  obtain ⟨-, hstore, -, -, -⟩ := templates_refused (s := s) (f := f) (r := r)
  exact hstore a

theorem byteSkip_w_refused {op : Byte → Byte} : byteSkip s f .w op = .refused r ↔ locateFile s f = .error r := by
  obtain ⟨-, -, hskip, -, -⟩ := templates_refused (s := s) (f := f) (r := r)
  exact hskip op

theorem byteSkip_f_refused {op : Byte → Byte} : byteSkip s f .f op = .refused r ↔
    locateFile s f = .error r ∨ (locateFile s f = .ok .pcl ∧ r = .skipOnPCL) := by
  obtain ⟨-, -, -, hskip, -⟩ := templates_refused (s := s) (f := f) (r := r)
  exact hskip op

theorem bitSkip_refused {b : BitVec 3} {v : Bool} : bitSkip s f b v = .refused r ↔ locateFile s f = .error r := by
  obtain ⟨-, -, -, -, hbit⟩ := templates_refused (s := s) (f := f) (r := r)
  exact hbit b v

/-- What answers for a located address and refuses with the address's own refusal, refuses for nothing else. -/
theorem refused_iff_of_access {o : Result} {x : Except Refusal Loc} (herror : ∀ e, x = .error e → o = .refused e)
    (hok : ∀ loc, x = .ok loc → ∃ t, o = .next t) : o = .refused r ↔ x = .error r := by
  cases x with
  | error e => simp [herror e rfl]
  | ok loc =>
    obtain ⟨t, ht⟩ := hok loc rfl
    simp [ht]

theorem next_ne_refused {t : State} : (.next t : Result) ≠ .refused r := nofun

theorem execTris_next (s : State) (g : BitVec 3) : ∃ t, execTris g s = .next t := by
  unfold execTris
  repeat' split
  all_goals exact ⟨_, rfl⟩

/-- An instruction is refused exactly where the spec refuses it. -/
theorem exec_refused : exec i s = .refused r ↔ RefusesFor s i r := by
  cases i with
  | addwf f d | addwfc f d | andwf f d | asrf f d | lslf f d | lsrf f d | comf f d | decf f d | incf f d | iorwf f d
  | movf f d | rlf f d | rrf f d | subwf f d | subwfb f d | swapf f d | xorwf f d | bcf f b | bsf f b =>
    refine .trans ?_ (refusesFor_file rfl rfl rfl rfl rfl)
    simp only [exec]
    exact byteOp_refused
  | clrf f | movwf f =>
    refine .trans ?_ (refusesFor_file rfl rfl rfl rfl rfl)
    exact fileStore_refused
  | btfsc f b | btfss f b =>
    refine .trans ?_ (refusesFor_file rfl rfl rfl rfl rfl)
    exact bitSkip_refused
  | decfsz f d => cases d with
    | w =>
      refine .trans ?_ (refusesFor_file rfl rfl rfl rfl rfl)
      exact byteSkip_w_refused (op := fun a => a - 1)
    | f =>
      refine .trans ?_ (refusesFor_skip rfl rfl rfl rfl rfl)
      exact byteSkip_f_refused (op := fun a => a - 1)
  | incfsz f d => cases d with
    | w =>
      refine .trans ?_ (refusesFor_file rfl rfl rfl rfl rfl)
      exact byteSkip_w_refused (op := fun a => a + 1)
    | f =>
      refine .trans ?_ (refusesFor_skip rfl rfl rfl rfl rfl)
      exact byteSkip_f_refused (op := fun a => a + 1)
  | moviwMod n mm =>
    refine .trans ?_ (refusesFor_move rfl rfl rfl rfl rfl)
    exact refused_iff_of_access (fun _ h => (exec_updatingMove_refused h).1) fun _ h => ⟨_, exec_moviwMod h⟩
  | movwiMod n mm =>
    refine .trans ?_ (refusesFor_move rfl rfl rfl rfl rfl)
    exact refused_iff_of_access (fun _ h => (exec_updatingMove_refused h).2) fun _ h => ⟨_, exec_movwiMod h⟩
  | moviwIdx n k =>
    refine .trans ?_ (refusesFor_move rfl rfl rfl rfl rfl)
    exact refused_iff_of_access (fun _ h => (exec_indexedMove_refused h).1) fun _ h => ⟨_, exec_moviwIdx h⟩
  | movwiIdx n k =>
    refine .trans ?_ (refusesFor_move rfl rfl rfl rfl rfl)
    exact refused_iff_of_access (fun _ h => (exec_indexedMove_refused h).2) fun _ h => ⟨_, exec_movwiIdx h⟩
  | call k =>
    refine .trans ?_ (refusesFor_push rfl rfl rfl rfl rfl)
    exact stack_refused.1 _
  | callw =>
    refine .trans ?_ (refusesFor_push rfl rfl rfl rfl rfl)
    exact stack_refused.1 _
  | ret | retlw k | retfie =>
    refine .trans ?_ (refusesFor_pop rfl rfl rfl rfl rfl)
    exact stack_refused.2 _
  | tris g =>
    obtain ⟨t, ht⟩ := execTris_next s g
    have hanswers : exec (.tris g) s = .next t := ht
    exact iff_of_false (hanswers ▸ next_ne_refused) (not_refusesFor rfl rfl rfl rfl rfl)
  | clrw | addlw k | andlw k | iorlw k | movlb k | movlp k | movlw k | sublw k | xorlw k | bra k | brw | goto k | clrwdt
  | nop | optionW | reset | sleep | addfsr n k =>
    exact iff_of_false next_ne_refused (not_refusesFor rfl rfl rfl rfl rfl)

theorem decode_error_eq {w : ProgWord} {e : DecodeError} (h : decode w = .error e) : e = .unassignedOpcode w := by
  unfold decode at h
  split at h
  · cases h
  · injection h with h
    exact h.symm

/-- Running the word at the PC is refused for the word, or for the instruction it is. -/
theorem runInstruction_refused : runInstruction s = .refused r ↔
    (r = .unassignedOpcode (s.progRead s.pc) ∧ unassignedWord (s.progRead s.pc).toNat = true)
    ∨ ∃ i, decode (s.progRead s.pc) = .ok i ∧ RefusesFor s i r := by
  rw [← decode_unassigned_iff]
  unfold runInstruction
  cases hd : decode (s.progRead s.pc) with
  | ok i => simp [exec_refused]
  | error e =>
    obtain rfl := decode_error_eq hd
    simp [eq_comm]

end

/-- The stage of a wake-up plays no part in what is refused. -/
theorem runInstruction_fetching_refused {s : State} {r : Refusal} : runInstruction s.fetching = .refused r ↔
    (r = .unassignedOpcode (s.progRead s.pc) ∧ unassignedWord (s.progRead s.pc).toNat = true)
    ∨ ∃ i, decode (s.progRead s.pc) = .ok i ∧ RefusesFor s i r := by
  rw [State.fetching_eq]
  exact runInstruction_refused

/-- A step is refused for interrupt entry on a full stack, for a word without an instruction, or for the instruction run. -/
theorem step_refused_iff {s : State} {r : Refusal} : step s = .refused r ↔ ∃ s',
    (EntersNow s s' ∧ r = .stackWrap ∧ s'.config.stvren = false ∧ s'.stkptr = 0x0F#5)
    ∨ (Fetches s s' ∧ r = .unassignedOpcode (s'.progRead s'.pc) ∧ unassignedWord (s'.progRead s'.pc).toNat = true)
    ∨ ∃ i, Runs s s' i ∧ RefusesFor s' i r := by
  rw [step_refused]
  simp only [interruptEntry_refused, runInstruction_fetching_refused, Runs, and_or_left, ← exists_and_left, and_assoc]

/-- Settles O57: no fault exists, and the refusals of `step_refused_iff` are sorted by their kind. -/
theorem stepStopsOnlyBySpecRefusals : Obligations.StepStopsOnlyBySpecRefusals := by
  refine fun s => ⟨nofun, fun r => ?_⟩
  rw [step_refused_iff]
  refine exists_congr fun s' => ⟨?_, ?_⟩
  · rintro (⟨hnow, hr, hstv, hfull⟩ | ⟨hf, hr, hword⟩ | ⟨i, hruns, hrefuses⟩)
    · exact .inr (.inl ⟨hr, hstv, .inl ⟨hfull, .inl hnow⟩⟩)
    · exact .inl ⟨hr, hf, hword⟩
    · obtain ⟨hr, hstv, ⟨hpush, hfull⟩ | ⟨hpop, hempty⟩⟩ | ⟨hr, n, ea, hindf⟩ | ⟨hr, f, hdest, hpcl⟩ := hrefuses
      · exact .inr (.inl ⟨hr, hstv, .inl ⟨hfull, .inr ⟨i, hruns, hpush⟩⟩⟩)
      · exact .inr (.inl ⟨hr, hstv, .inr ⟨hempty, i, hruns, hpop⟩⟩)
      · exact .inr (.inr (.inl ⟨hr, i, n, ea, hruns, hindf⟩))
      · obtain rfl | rfl := skipDestination_eq_some.1 hdest
        · exact .inr (.inr (.inr ⟨hr, f, hpcl, .inl hruns⟩))
        · exact .inr (.inr (.inr ⟨hr, f, hpcl, .inr hruns⟩))
  · rintro (⟨hr, hf, hword⟩ | ⟨hr, hstv, ⟨hfull, hnow | ⟨i, hruns, hpush⟩⟩ | ⟨hempty, i, hruns, hpop⟩⟩
      | ⟨hr, i, n, ea, hruns, hindf⟩ | ⟨hr, f, hpcl, hruns | hruns⟩)
    · exact .inr (.inl ⟨hf, hr, hword⟩)
    · exact .inl ⟨hnow, hr, hstv, hfull⟩
    · exact .inr (.inr ⟨i, hruns, .inl ⟨hr, hstv, .inl ⟨hpush, hfull⟩⟩⟩)
    · exact .inr (.inr ⟨i, hruns, .inl ⟨hr, hstv, .inr ⟨hpop, hempty⟩⟩⟩)
    · exact .inr (.inr ⟨i, hruns, .inr (.inl ⟨hr, n, ea, hindf⟩)⟩)
    · exact .inr (.inr ⟨_, hruns, .inr (.inr ⟨hr, f, rfl, hpcl⟩)⟩)
    · exact .inr (.inr ⟨_, hruns, .inr (.inr ⟨hr, f, rfl, hpcl⟩)⟩)

end Sys2Proof.Machine
end

section
/-! PROOFS. The statements of `70_reset_and_hazards.md`: the external resets by cause (R350 to R352), and the cycle counter,
on which nothing depends (R360). -/

namespace Sys2Proof.Machine

/-! ### External resets -/

theorem step_of_externalReset {s s' : State} {cause : ExternalCause} (ht : TurnOf s (.externalReset cause) s') :
    step s = .next (deviceReset cause.toCause s') :=
  step_of_turn ht

theorem nToAfterReset_mclr (s : State) : s.nToAfterReset .mclr = (s.asleep || s.nTO) := by
  unfold State.nToAfterReset
  cases s.asleep <;> rfl

theorem nPdAfterReset_mclr (s : State) : s.nPdAfterReset .mclr = (!s.asleep && s.nPD) := by
  unfold State.nPdAfterReset
  cases s.asleep <;> rfl

/-- A reset by MCLR is one that keeps W; nTO and nPD tell whether it came during Sleep (R352). -/
theorem deviceReset_mclr (s : State) : deviceReset .mclr s =
    { resetKeeping s with pcon := { s.pcon with nRMCLR := false }
                          nTO := s.asleep || s.nTO, nPD := !s.asleep && s.nPD } := by
  rw [← nToAfterReset_mclr, ← nPdAfterReset_mclr]
  exact warmReset_eq s .mclr

/-- Settles O51: MCLR keeps the contents; the other two lose them, and what they leave unknown is read off the next state. -/
theorem externalResetsByCause : Obligations.ExternalResetsByCause := by
  refine ⟨fun s s' ht => ?_, fun s s' ht => ⟨_, step_of_externalReset ht, rfl⟩,
    fun s s' ht => ⟨_, step_of_externalReset ht, rfl⟩⟩
  rw [step_of_externalReset ht]
  exact congrArg Host.Outcome.next (deviceReset_mclr s')

/-! ### The cycle counter -/

/-- `s` with another cycle count. -/
def State.withCycles (s : State) (n : Nat) : State := { s with cycles := n }

/-- The outcomes agree but for the cycle counter. -/
def SameButCycles (a b : Result) : Prop := forgetCycles a = forgetCycles b

/-! The moves that do not count: they pass the counter on. -/

theorem readLoc_withCycles (s : State) (n : Nat) (loc : Loc) : readLoc (s.withCycles n) loc = readLoc s loc := by
  cases loc <;> rfl

theorem afterRead_withCycles (s : State) (n : Nat) (loc : Loc) :
    afterRead (s.withCycles n) loc = (afterRead s loc).withCycles n := by
  cases loc <;> rfl

theorem writeLoc_withCycles (s : State) (n : Nat) (loc : Loc) (v : Byte) (affects : Bool) :
    writeLoc (s.withCycles n) loc v affects = (writeLoc s loc v affects).withCycles n := by
  cases loc with
  | status => cases affects <;> rfl
  | _ => rfl

theorem State.setFsr_withCycles (s : State) (n : Nat) (p : FsrSel) (v : FsrAddr) :
    (s.withCycles n).setFsr p v = (s.setFsr p v).withCycles n := by
  cases p <;> rfl

theorem State.fsr_withCycles (s : State) (n : Nat) (p : FsrSel) : (s.withCycles n).fsr p = s.fsr p := by
  cases p <;> rfl

theorem State.loadW_withCycles (s : State) (n : Nat) (loc : Loc) :
    (s.withCycles n).loadW loc = (s.loadW loc).withCycles n := by
  unfold State.loadW
  rw [readLoc_withCycles, afterRead_withCycles]
  rfl

theorem State.beforeMove_withCycles (s : State) (n : Nat) (p : FsrSel) (mm : PtrMode) :
    (s.withCycles n).beforeMove p mm = (s.beforeMove p mm).withCycles n := by
  unfold State.beforeMove
  rw [State.fsr_withCycles, State.setFsr_withCycles]
  cases mm <;> rfl

theorem State.afterMove_withCycles (s : State) (n : Nat) (p : FsrSel) (mm : PtrMode) (old : FsrAddr) :
    (s.withCycles n).afterMove p mm old = (s.afterMove p mm old).withCycles n := by
  unfold State.afterMove
  rw [State.setFsr_withCycles]
  cases mm <;> rfl

theorem deviceReset_withCycles (cause : ResetCause) (s : State) (n : Nat) :
    deviceReset cause (s.withCycles n) = (deviceReset cause s).withCycles n := by
  cases cause <;> rfl

theorem State.wakeUp_withCycles (s : State) (n : Nat) : (s.withCycles n).wakeUp = s.wakeUp.withCycles n := by
  have hpending : ((s.withCycles n).asleep && (s.withCycles n).irqPending) = (s.asleep && s.irqPending) := rfl
  unfold State.wakeUp
  rw [hpending]
  split <;> rfl

theorem State.wdtRun_withCycles (s : State) (n : Nat) : (s.withCycles n).wdtRun = s.wdtRun.withCycles n := by
  have henabled : (s.withCycles n).wdtEnabled = s.wdtEnabled := rfl
  unfold State.wdtRun
  rw [henabled]
  split <;> rfl

theorem State.wdtTimeout_withCycles (s : State) (n : Nat) :
    (s.withCycles n).wdtTimeout = s.wdtTimeout.withCycles n := by
  have henabled : (s.withCycles n).wdtEnabled = s.wdtEnabled := rfl
  have hasleep : (s.withCycles n).asleep = s.asleep := rfl
  unfold State.wdtTimeout
  rw [henabled, hasleep, deviceReset_withCycles]
  repeat' split
  all_goals rfl

/-! The moves that count: they end an instruction. -/

theorem SameButCycles.withCycles (s : State) (n : Nat) : SameButCycles (.next (s.withCycles n)) (.next s) := rfl

theorem SameButCycles.continueAt (s : State) (n : Nat) (p : PC) (k : Nat) :
    SameButCycles (.next ((s.withCycles n).continueAt p k)) (.next (s.continueAt p k)) := rfl

theorem SameButCycles.continueAfterWrite (s : State) (n : Nat) (loc : Loc) (v : Byte) :
    SameButCycles (.next ((s.withCycles n).continueAfterWrite loc v)) (.next (s.continueAfterWrite loc v)) := by
  unfold State.continueAfterWrite
  split <;> rfl

theorem SameButCycles.skipIf (s : State) (n : Nat) (taken : Bool) (loc : Loc) :
    SameButCycles (.next ((s.withCycles n).skipIf taken loc)) (.next (s.skipIf taken loc)) := by
  cases taken <;> rfl

theorem SameButCycles.store (s : State) (n : Nat) (loc : Loc) (v : Byte) (affects : Bool) :
    SameButCycles (.next ((s.withCycles n).store loc v affects)) (.next (s.store loc v affects)) := by
  unfold State.store
  rw [writeLoc_withCycles]
  exact .continueAfterWrite _ n loc v

/-! The templates of the instructions. -/

section
variable (s : State) (n : Nat)

theorem SameButCycles.byteOp (f : FileAddr) (d : Dest) (op : Byte → AluResult) :
    SameButCycles (byteOp (s.withCycles n) f d op) (byteOp s f d op) := by
  have hloc : locateFile (s.withCycles n) f = locateFile s f := rfl
  simp only [Machine.byteOp, hloc]
  cases locateFile s f with
  | error r => rfl
  | ok loc =>
    simp only [afterRead_withCycles, readLoc_withCycles]
    cases d with
    | w => rfl
    | f => exact .store ((afterRead s loc).applyFlags (op (readLoc s loc))) n loc _ _

theorem SameButCycles.fileStore (f : FileAddr) (r : AluResult) :
    SameButCycles (fileStore (s.withCycles n) f r) (fileStore s f r) := by
  have hloc : locateFile (s.withCycles n) f = locateFile s f := rfl
  simp only [Machine.fileStore, hloc]
  cases locateFile s f with
  | error r => rfl
  | ok loc => exact .store (s.applyFlags r) n loc _ _

theorem SameButCycles.byteSkip (f : FileAddr) (d : Dest) (op : Byte → Byte) :
    SameButCycles (byteSkip (s.withCycles n) f d op) (byteSkip s f d op) := by
  have hloc : locateFile (s.withCycles n) f = locateFile s f := rfl
  simp only [Machine.byteSkip, hloc]
  cases locateFile s f with
  | error r => rfl
  | ok loc =>
    simp only [afterRead_withCycles, readLoc_withCycles, writeLoc_withCycles]
    cases d with
    | w => exact .skipIf { afterRead s loc with w := op (readLoc s loc) } n _ loc
    | f =>
      simp only []
      split
      · rfl
      · exact .skipIf _ n _ loc

theorem SameButCycles.bitSkip (f : FileAddr) (b : BitVec 3) (v : Bool) :
    SameButCycles (bitSkip (s.withCycles n) f b v) (bitSkip s f b v) := by
  have hloc : locateFile (s.withCycles n) f = locateFile s f := rfl
  simp only [Machine.bitSkip, hloc]
  cases locateFile s f with
  | error r => rfl
  | ok loc =>
    simp only [afterRead_withCycles, readLoc_withCycles]
    exact .skipIf _ n _ loc

theorem SameButCycles.overflowOutcome : SameButCycles (overflowOutcome (s.withCycles n)) (overflowOutcome s) := by
  have hconfig : (s.withCycles n).config = s.config := rfl
  unfold Machine.overflowOutcome
  rw [hconfig]
  split <;> rfl

theorem SameButCycles.underflowOutcome : SameButCycles (underflowOutcome (s.withCycles n)) (underflowOutcome s) := by
  have hconfig : (s.withCycles n).config = s.config := rfl
  unfold Machine.underflowOutcome
  rw [hconfig]
  split <;> rfl

theorem push_withCycles {s : State} (v : PC) (hroom : s.stkptr ≠ stkptrFull) :
    ∃ t, push s v = .done t ∧ push (s.withCycles n) v = .done (t.withCycles n) :=
  ⟨_, if_neg hroom, if_neg hroom⟩

theorem SameButCycles.callTo (target : PC) : SameButCycles (callTo (s.withCycles n) target) (callTo s target) := by
  by_cases hfull : s.stkptr = 0x0F#5
  · rw [(callTo_cases s target).2 hfull, (callTo_cases (s.withCycles n) target).2 hfull]
    exact .overflowOutcome s n
  · obtain ⟨t, ht, htn⟩ := push_withCycles n (s.pc + 1) hfull
    have hpc : (s.withCycles n).pc = s.pc := rfl
    simp only [Machine.callTo, hpc, ht, htn]
    exact .continueAt t n target 2

theorem SameButCycles.returnWith (effect : State → State)
    (he : ∀ u : State, effect (u.withCycles n) = (effect u).withCycles n) :
    SameButCycles (returnWith (s.withCycles n) effect) (returnWith s effect) := by
  by_cases hempty : s.stkptr = 0x1F#5
  · rw [(returnWith_cases s effect).2 hempty, (returnWith_cases (s.withCycles n) effect).2 hempty]
    exact .underflowOutcome s n
  · rw [(returnWith_cases s effect).1 hempty, (returnWith_cases (s.withCycles n) effect).1 hempty]
    have hpopped := he { s with stkptr := s.stkptr - 1 }
    exact congrArg (fun u => forgetCycles (.next (u.continueAt (entryAt s s.stkptr.toNat) 2))) hpopped

theorem SameButCycles.interruptEntry : SameButCycles (interruptEntry (s.withCycles n)) (interruptEntry s) := by
  by_cases hfull : s.stkptr = 0x0F#5
  · rw [(interruptEntry_cases s).2 hfull, (interruptEntry_cases (s.withCycles n)).2 hfull]
    exact .overflowOutcome s n
  · obtain ⟨t, ht, htn⟩ := push_withCycles (s := s.setGie false) n s.pc hfull
    have hgie : (s.withCycles n).setGie false = (s.setGie false).withCycles n := rfl
    have hpc : (s.withCycles n).pc = s.pc := rfl
    simp only [Machine.interruptEntry, hgie, hpc, ht, htn]
    rfl

theorem SameButCycles.moviwMod (p : FsrSel) (mm : PtrMode) :
    SameButCycles (execMoviwMod p mm (s.withCycles n)) (execMoviwMod p mm s) := by
  have hconfig : (s.withCycles n).config = s.config := rfl
  simp only [execMoviwMod, hconfig, State.fsr_withCycles, State.beforeMove_withCycles, State.loadW_withCycles,
    State.afterMove_withCycles]
  cases locateFsr s.config.device (pointerUsed mm (s.fsr p)) <;> rfl

theorem SameButCycles.moviwIdx (p : FsrSel) (k : BitVec 6) :
    SameButCycles (execMoviwIdx p k (s.withCycles n)) (execMoviwIdx p k s) := by
  have hconfig : (s.withCycles n).config = s.config := rfl
  simp only [execMoviwIdx, hconfig, State.indexed, State.fsr_withCycles, State.loadW_withCycles]
  cases locateFsr s.config.device (s.fsr p + k.signExtend 16) <;> rfl

theorem SameButCycles.movwiMod (p : FsrSel) (mm : PtrMode) :
    SameButCycles (execMovwiMod p mm (s.withCycles n)) (execMovwiMod p mm s) := by
  have hconfig : (s.withCycles n).config = s.config := rfl
  simp only [execMovwiMod, hconfig, State.fsr_withCycles, State.beforeMove_withCycles, writeLoc_withCycles,
    State.afterMove_withCycles]
  cases locateFsr s.config.device (pointerUsed mm (s.fsr p)) with
  | error r => rfl
  | ok loc => exact .continueAfterWrite _ n loc s.w

theorem SameButCycles.movwiIdx (p : FsrSel) (k : BitVec 6) :
    SameButCycles (execMovwiIdx p k (s.withCycles n)) (execMovwiIdx p k s) := by
  have hconfig : (s.withCycles n).config = s.config := rfl
  simp only [execMovwiIdx, hconfig, State.indexed, State.fsr_withCycles]
  cases locateFsr s.config.device (s.fsr p + k.signExtend 16) with
  | error r => rfl
  | ok loc => exact .store s n loc s.w false

theorem SameButCycles.tris (f : BitVec 3) : SameButCycles (execTris f (s.withCycles n)) (execTris f s) := by
  unfold execTris
  repeat' split
  · exact .store s n .trisa s.w false
  · exact .store s n .trisb s.w false
  · exact .store s n .trisc s.w false
  · rfl

theorem SameButCycles.sleep : SameButCycles (execSleep (s.withCycles n)) (execSleep s) := by
  have hpending : (s.withCycles n).irqPending = s.irqPending := rfl
  unfold execSleep
  rw [hpending]
  split <;> rfl

/-- Every instruction is blind for the counter. -/
theorem SameButCycles.exec (i : Instr) : SameButCycles (exec i (s.withCycles n)) (exec i s) := by
  cases i with
  | addwf f d | addwfc f d | andwf f d | asrf f d | lslf f d | lsrf f d | comf f d | decf f d | incf f d | iorwf f d
  | movf f d | rlf f d | rrf f d | subwf f d | subwfb f d | swapf f d | xorwf f d | bcf f b | bsf f b =>
    simp only [Machine.exec]
    exact .byteOp s n f _ _
  | clrf f | movwf f => exact .fileStore s n f _
  | decfsz f d => exact .byteSkip s n f d fun a => a - 1
  | incfsz f d => exact .byteSkip s n f d fun a => a + 1
  | btfsc f b | btfss f b => exact .bitSkip s n f b _
  | call k => exact .callTo s n (s.pageTarget k)
  | callw => exact .callTo s n (s.pclath ++ s.w)
  | ret | retlw k | retfie => exact .returnWith s n _ fun _ => rfl
  | optionW => exact .store s n .optionReg s.w false
  | sleep => exact .sleep s n
  | tris f => exact .tris s n f
  | addfsr p k => cases p <;> rfl
  | moviwMod p mm => exact .moviwMod s n p mm
  | moviwIdx p k => exact .moviwIdx s n p k
  | movwiMod p mm => exact .movwiMod s n p mm
  | movwiIdx p k => exact .movwiIdx s n p k
  | clrw | addlw k | andlw k | iorlw k | movlb k | movlp k | movlw k | sublw k | xorlw k | bra k | brw | goto k | clrwdt
  | nop | reset => rfl

theorem SameButCycles.runInstruction : SameButCycles (runInstruction (s.withCycles n)) (runInstruction s) := by
  have hword : (s.withCycles n).progRead (s.withCycles n).pc = s.progRead s.pc := rfl
  simp only [Machine.runInstruction, hword]
  cases decode (s.progRead s.pc) with
  | error e => rfl
  | ok i => exact .exec s n i

theorem SameButCycles.cpuStep : SameButCycles (cpuStep (s.withCycles n)) (cpuStep s) := by
  have hasleep : (s.withCycles n).asleep = s.asleep := rfl
  have hwake : (s.withCycles n).wake = s.wake := rfl
  have hrequest : (s.withCycles n).interruptRequest = s.interruptRequest := rfl
  simp only [Machine.cpuStep, hasleep, hwake, hrequest, State.wakeUp_withCycles]
  split
  · rfl
  · cases s.wake with
    | settled =>
      simp only []
      split
      · exact .interruptEntry s n
      · exact .runInstruction s n
    | resumeFirst => exact .runInstruction { s with wake := .entryDue } n
    | entryDue => exact .interruptEntry s n

theorem SameButCycles.takeTurn (a : Turn) : SameButCycles (takeTurn a (s.withCycles n)) (takeTurn a s) := by
  cases a with
  | cpu => exact .cpuStep s n
  | platform e =>
    have hevent : (s.withCycles n).platformEvent e = (s.platformEvent e).withCycles n := by cases e <;> rfl
    simp only [Machine.takeTurn, hevent, State.wakeUp_withCycles]
    rfl
  | externalReset cause =>
    simp only [Machine.takeTurn, deviceReset_withCycles]
    rfl
  | wdtRun =>
    simp only [Machine.takeTurn, State.wdtRun_withCycles]
    rfl
  | wdtTimeout =>
    simp only [Machine.takeTurn, State.wdtTimeout_withCycles]
    rfl

end

/-- Settles O58: whoever's turn it is makes a move that is blind for the counter. -/
theorem cyclesAreOnlyAnObserver : Obligations.CyclesAreOnlyAnObserver := by
  intro s n
  obtain ⟨a, s', ht⟩ := turn_exists s
  have htn : TurnOf (s.withCycles n) a (s'.withCycles n) := by
    obtain ⟨hs, rfl, rfl⟩ | ⟨rest, hs, rfl⟩ := ht
    · exact .inl ⟨hs, rfl, rfl⟩
    · exact .inr ⟨rest, hs, rfl⟩
  have hstep : step { s with cycles := n } = Machine.takeTurn a (s'.withCycles n) := step_of_turn htn
  rw [hstep, step_of_turn ht]
  exact SameButCycles.takeTurn s' n a

end Sys2Proof.Machine
end
